-- ==== Sys2Proof/Word.lean ====
section
/-! DEFINITION. The word types: a byte of the Control Link, a 32-bit pixel word of the frame store, the 16-bit
checks of the link and of the fixture bus. Everything the manual counts is a `Nat`, everything it signs an `Int`. -/

namespace Sys2Proof

/-- A byte on the Control Link, or of the frame store. -/
abbrev Byte := BitVec 8

/-- A pixel word of the frame store: two ignored bits, then R, G and B of 10 bits each (00_scope.md, Pixels). -/
abbrev Word := BitVec 32

/-- A CRC-16 register (R150, R171). -/
abbrev Crc := BitVec 16

end Sys2Proof
end

