-- ==== Sys2Proof/Syntax.lean ====
section
/-! DEFINITION. The commands of the part: one constructor of `Instr` for each row of spec/opcode_table.json, with
the operands of the row. A request carries its tag and the fields of its body, codes and numbers as they stand in the
body, so that a value the manual refuses can be written down and is refused by the command's meaning. An optional
field is an `Option`; a field that may name NONE is an `Option` whose `none` is NONE. -/

namespace Sys2Proof

/-- One colour: three components (00_scope.md, Units). -/
structure Rgb where
  r : Nat
  g : Nat
  b : Nat
deriving DecidableEq, Repr, Inhabited

/-- A rectangle by its top-left pixel and its size. -/
structure Rect where
  x : Nat
  y : Nat
  width : Nat
  height : Nat
deriving DecidableEq, Repr, Inhabited

/-- The two fixture bus ports (chapter 10). -/
inductive Port
  | a
  | b
deriving DecidableEq, Repr, Inhabited

/-- CLEAR FLAGS (R178). The wall sets have bit i for wall i; `select` has bit 0 for WAIT_OVERFLOW, bit 1 for
FADE_OVERFLOW and bit 2 for the link error count (log 23). -/
structure ClearFlagsReq where
  clip : Nat
  shed : Nat
  select : Nat
  first : Nat
  count : Nat
deriving DecidableEq, Repr

/-- SET REFERENCE (R16). -/
structure SetReferenceReq where
  mode : Option Nat
  standard : Option Nat
  fieldMode : Option Nat
  polarity : Option Nat
  limit : Option Nat
deriving DecidableEq, Repr

/-- SET CAMERA (R27). -/
structure SetCameraReq where
  camera : Nat
  phase : Option Nat
  preferred : Option Nat
  source : Option Nat
  polarity : Option Nat
deriving DecidableEq, Repr

/-- READ PHASE (R30): its tag, and the levels of the tally lines at its moment where the request comes as a command of
its own; the body of the request is empty, and one that waits in the queue carries no levels (log 5). -/
structure ReadPhaseReq where
  tag : Byte
  lines : Option (BitVec 8)
deriving DecidableEq, Repr

/-- DEFINE REGION (R37). -/
structure DefineRegionReq where
  id : Nat
  kind : Nat
  base : Nat
  width : Nat
  height : Nat
  protect : Option Nat
deriving DecidableEq, Repr

/-- WRITE CONTENT (R52). -/
structure WriteContentReq where
  region : Nat
  offset : Nat
  pixels : List Word
deriving DecidableEq, Repr

/-- FILL REGION (R54). -/
structure FillRegionReq where
  region : Nat
  rect : Rect
  colour : Rgb
deriving DecidableEq, Repr

/-- READ CONTENT (R61). -/
structure ReadContentReq where
  region : Nat
  offset : Nat
  count : Nat
deriving DecidableEq, Repr

/-- DEFINE WALL (R76). -/
structure DefineWallReq where
  wall : Nat
  width : Nat
  height : Nat
  refresh : Nat
  background : Rgb
deriving DecidableEq, Repr

/-- SET LAYER (R80). -/
structure SetLayerReq where
  wall : Nat
  layer : Nat
  source : Option Nat
  rect : Rect
  px : Int
  py : Int
deriving DecidableEq, Repr

/-- SET WALL MODE (R83); the pattern counts for TEST and the colour for FLAT. -/
structure SetWallModeReq where
  wall : Nat
  mode : Nat
  pattern : Nat
  colour : Rgb
deriving DecidableEq, Repr

/-- SET TILE (R87). -/
structure SetTileReq where
  tile : Nat
  wall : Nat
  chain : Nat
  position : Nat
  rect : Rect
  orientation : Nat
deriving DecidableEq, Repr

/-- SET CORRECTION (R101). -/
structure SetCorrectionReq where
  tile : Nat
  gainR : Option Nat
  gainG : Option Nat
  gainB : Option Nat
  offset : Option Nat
  clip : Option Nat
deriving DecidableEq, Repr

/-- DEFINE ZONE (R93); wall `none` is the code NONE. -/
structure DefineZoneReq where
  zone : Nat
  wall : Option Nat
  rect : Rect
deriving DecidableEq, Repr

/-- The fields of one action of STORE CUE as sent (R110); `unknown` is a kind code that names no kind. -/
inductive RawAction
  | layerSource (wall layer : Nat) (source : Option Nat) (rect : Rect) (px py : Int)
  | layerFade (wall layer level duration curve : Nat)
  | wallFade (wall level duration curve : Nat)
  | levelFade (first count level duration curve : Nat)
  | masterFade (level duration curve : Nat)
  | wallMode (wall mode pattern : Nat) (colour : Rgb)
  | unknown (kind : Nat)
deriving DecidableEq, Repr

/-- One action of STORE CUE with its delay. -/
structure RawTimed where
  delay : Nat
  action : RawAction
deriving DecidableEq, Repr

/-- STORE CUE (R111); `arg` is the follow delay or the camera. -/
structure StoreCueReq where
  cue : Nat
  trigger : Nat
  arg : Nat
  actions : List RawTimed
deriving DecidableEq, Repr

/-- FADE (R138). -/
structure FadeReq where
  target : Nat
  level : Nat
  duration : Nat
  curve : Nat
deriving DecidableEq, Repr

/-- SET CHANNEL (R144). -/
structure SetChannelReq where
  first : Nat
  count : Nat
  mode : Nat
  zone : Nat
  component : Nat
  gain : Nat
  smoothing : Nat
deriving DecidableEq, Repr

/-- READ LEVELS (R145). -/
structure ReadLevelsReq where
  view : Nat
  first : Nat
  count : Nat
deriving DecidableEq, Repr

/-- SET BUS (R147). -/
structure SetBusReq where
  port : Nat
  enable : Nat
  rate : Option Nat
deriving DecidableEq, Repr

/-- SET FILTER (R156). -/
structure SetFilterReq where
  port : Nat
  filter : Nat
  value : Nat
  mask : Nat
  enabled : Nat
deriving DecidableEq, Repr

/-- DEFINE FIXTURE (R158). -/
structure DefineFixtureReq where
  id : Nat
  port : Nat
  address : Nat
  first : Nat
  count : Nat
  keepAlive : Option Nat
  silence : Option Nat
deriving DecidableEq, Repr

/-- SET DIMMER (R165); a channel that is present and `none` is NONE. -/
structure SetDimmerReq where
  output : Nat
  channel : Option (Option Nat)
  divisor : Option Nat
  minWidth : Option Nat
  polarity : Option Nat
deriving DecidableEq, Repr

/-- What a full reset takes from outside: the strap pins at its end (bit 1 strap 1, bit 0 strap 0, R170), and how
many pixels were already written if the reset fell within an access that writes: `cut` of a burst (R50), or `live` of a
live capture access (R75); 0 and 0 if none was in progress (log 14). `sending` says how many bits of the frame last put
on the transmit line had gone out when the reset pin acted (R180, log 16), and is none if no frame was being sent. -/
structure ResetIn where
  straps : BitVec 2
  cut : Nat
  live : Nat
  sending : Option Nat
deriving DecidableEq, Repr

/-- How the sizing of one rank position ends (R33); sizes in MiB, the page is the first failing page. -/
inductive RankOutcome
  | absent
  | sizeFault
  | passed (size : Nat)
  | patternFault (size page : Nat)
deriving DecidableEq, Repr

/-- One character on the receive line of the Control Link (R170): whether more than 1 ms passed since the character
before it (R171), and the levels of its bits in the order in which they came, the start bit first. -/
structure LineChar where
  gap : Bool
  bits : List Bool
deriving DecidableEq, Repr

/-- A character as the receiver takes it (R170, R171): its value, whether more than 1 ms passed since the character
before it, and whether its stop bit read low. -/
structure RxChar where
  value : Byte
  gap : Bool
  error : Bool
deriving DecidableEq, Repr

/-- A pulse on the frame pulse input (R1): its moment in ns, the level of the field line at its leading edge, the
time from it to the next line pulse if one follows, and the levels of the tally lines (log 4 to 6). -/
structure FramePulse where
  time : Nat
  fieldHigh : Bool
  lineAfter : Option Nat
  tally : BitVec 8
deriving DecidableEq, Repr

/-- Which of the two upper requesters wait at the moment the DRAM becomes free (R48, log 10): scan fetch for a run of
canvas pixels of a wall, live capture for a number of the pixels it holds. -/
structure Asks where
  scan : Option (Nat × Nat)
  live : Nat
deriving DecidableEq, Repr

/-- The five kinds of bus error (R153). -/
inductive BusErrorKind
  | bit
  | run
  | check
  | form
  | missingAck
deriving DecidableEq, Repr

/-- A bus error as a port detects it (R153): its kind, the longest run of recessive bits that the line has carried since
the port's last error mark (log 28), for a form error in the end field which bit of that field read dominant (1 to 7; 0
for an error anywhere else), and whether the frame it stands in began after that mark, where its delimiter is not yet
complete (log 28). -/
structure BusFault where
  kind : BusErrorKind
  recessive : Nat
  endBit : Nat
  later : Bool
deriving DecidableEq, Repr

/-- A bus frame of another node as a port reads it (R152): the longest run of recessive bits that the line has carried
between the port's last error mark and the frame (log 28), and the bits of the frame. -/
structure BusReception where
  recessive : Nat
  bits : List Bool
deriving DecidableEq, Repr

/-- The commands, one constructor for each row of spec/opcode_table.json. -/
inductive Instr
  | powerOn (r : ResetIn)
  | resetPin (r : ResetIn)
  | rankSized (o : RankOutcome)
  | controlLinkFrame (time : Nat) (tally : BitVec 8) (chars : List LineChar)
  | unknownKind (tag kind : Byte)
  | transmitFrame
  | identify (tag : Byte)
  | readStatus (tag : Byte)
  | clearFlags (tag : Byte) (r : ClearFlagsReq)
  | setNoticeMask (tag : Byte) (mask : Nat)
  | reset (tag : Byte) (scope : Nat)
  | linkReset
  | fullReset (r : ResetIn)
  | setReference (tag : Byte) (r : SetReferenceReq)
  | readTiming (tag : Byte)
  | framePulse (p : FramePulse)
  | linePulse (time : Nat)
  | lateLimit (tally : BitVec 8)
  | acquisitionAbandoned (tally : BitVec 8)
  | holdoverExpired (tally : BitVec 8)
  | frameBoundary (tally : BitVec 8)
  | waitEntryDue (tally : BitVec 8)
  | followExpiry (tally : BitVec 8)
  | fadeEnd (target : Nat) (tally : BitVec 8)
  | latchInstant (wall k : Nat)
  | chainEcho (chain word : Nat)
  | zoneComplete (zone : Nat)
  | dramAccessGrant (asks : Asks)
  | burstGrant (asks : Asks)
  | waitingRequestAccept
  | regionRemoval
  | readProceeds
  | contentReadGrant (asks : Asks)
  | inputFrameStart
  | lineStrobe
  | inputFrameComplete
  | feedLost (tally : BitVec 8)
  | setCamera (tag : Byte) (r : SetCameraReq)
  | setIdlePhase (tag : Byte) (phase : Nat)
  | setSlew (tag : Byte) (limit : Nat)
  | tally (tag : Byte) (camera state : Nat)
  | readPhase (r : ReadPhaseReq)
  | defineRegion (tag : Byte) (r : DefineRegionReq)
  | deleteRegion (tag : Byte) (id : Nat)
  | readRegion (tag : Byte) (id : Nat)
  | readMemory (tag : Byte)
  | setShowLock (tag : Byte)
  | writeContent (tag : Byte) (r : WriteContentReq)
  | fillRegion (tag : Byte) (r : FillRegionReq)
  | readContent (tag : Byte) (r : ReadContentReq)
  | readPosting (tag : Byte)
  | setLiveInput (tag : Byte) (region : Option Nat)
  | readLive (tag : Byte)
  | defineWall (tag : Byte) (r : DefineWallReq)
  | deleteWall (tag : Byte) (wall : Nat)
  | setLayer (tag : Byte) (r : SetLayerReq)
  | setWallMode (tag : Byte) (r : SetWallModeReq)
  | setTile (tag : Byte) (r : SetTileReq)
  | removeTile (tag : Byte) (tile : Nat)
  | setCorrection (tag : Byte) (r : SetCorrectionReq)
  | defineZone (tag : Byte) (r : DefineZoneReq)
  | readWall (tag : Byte) (wall : Nat)
  | readZone (tag : Byte) (zone : Nat)
  | storeCue (tag : Byte) (r : StoreCueReq)
  | deleteCue (tag : Byte) (cue : Nat)
  | standby (tag : Byte) (cue : Nat)
  | go (tag : Byte)
  | goCue (tag : Byte) (cue : Nat)
  | cancelGo (tag : Byte)
  | hold (tag : Byte)
  | release (tag : Byte)
  | stepFrames (tag : Byte) (n : Nat)
  | readCue (tag : Byte) (cue search : Nat)
  | readCueState (tag : Byte)
  | setCurve (tag : Byte) (curve : Nat) (points : List Nat)
  | fade (tag : Byte) (r : FadeReq)
  | setChannel (tag : Byte) (r : SetChannelReq)
  | readLevels (tag : Byte) (r : ReadLevelsReq)
  | setBus (tag : Byte) (r : SetBusReq)
  | setFilter (tag : Byte) (r : SetFilterReq)
  | defineFixture (tag : Byte) (r : DefineFixtureReq)
  | deleteFixture (tag : Byte) (id : Nat)
  | readBus (tag : Byte) (port : Nat)
  | readFixture (tag : Byte) (id : Nat) (search : Option Nat)
  | setDimmer (tag : Byte) (r : SetDimmerReq)
  | readDimmer (tag : Byte) (output : Option Nat)
  | portJoined (p : Port)
  | portRecovered (p : Port)
  | sendStart (p : Port) (idleBits : Nat)
  | lostArbitration (p : Port)
  | sendSuccess (p : Port)
  | validReception (p : Port) (r : BusReception)
  | busError (p : Port) (e : BusFault)
  | keepAliveExpiry (fixture : Nat) (tally : BitVec 8)
  | silenceLimit (fixture : Nat) (tally : BitVec 8)
  | dimmerPeriodStart (output j : Nat)
  | dimmerPulseEnd (output : Nat)
  | inputPixel (r g b : BitVec 10)
  | quietPeriod (p : Port)
deriving DecidableEq, Repr

end Sys2Proof
end

