-- ==== Sys2Proof/Decode.lean ====
section
/-! DEFINITION. What a word spells. The rows of spec/opcode_table.json give no bits, so no word spells a command
(log 30). How the bytes of a Control Link frame spell a request is in Machine/Formats.lean and Machine/Link.lean. -/

namespace Sys2Proof

/-- No row of the table gives bits: no word spells a command (log 30). -/
def decodeTableWord (_nbits _w : Nat) : Option Instr := none

end Sys2Proof
end

