-- ==== Sys2Proof/Config.lean ====
section
/-! DEFINITION. What an implementation of the NK-3120 fixes and the manual leaves open (the free values, each an
opaque constant), and the identification codes of R177. -/

namespace Sys2Proof.Config

/-- Free value (log 13). R89 says only that the check word is formed from the chain number and the frame counter,
and differs in consecutive frames: this is the part of the word that is left open. -/
opaque checkWordBody : Nat → Nat → Nat

/-- Free value (log 15). R174: a reply and a notice that become ready at the same moment go out in either order: the
place of the reply among the notices of its moment. The argument is the number of such choices made before. -/
opaque replyPlace : Nat → Nat

/-- R177. -/
def vendorCode : Nat := 0x0A7D

/-- R177. -/
def partCode : Nat := 0x3120

/-- R177. -/
def revision : Nat := 1

end Sys2Proof.Config
end

