-- ==== Sys2Proof/Machine/Tables.lean ====
section
/-! DEFINITION. The two kinds of table the state is made of: a table of a fixed number of entries, all of them always
present (channels, chains, dimmer outputs), as a `Vector` read and written by number; and a table whose entries are
free or hold a record (regions, tiles, cues), as a list of numbered records with the numbers rising. -/

namespace Sys2Proof.Machine

/-- Entry `i` of a fixed table; `d` past its end. -/
def at_ {α : Type} {n : Nat} (v : Vector α n) (i : Nat) (d : α) : α := v[i]?.getD d

/-- Write entry `i` of a fixed table; nothing past its end. -/
def put {α : Type} {n : Nat} (v : Vector α n) (i : Nat) (x : α) : Vector α n := v.setIfInBounds i x

/-- Map a list with the number of each entry, counting from `i`. -/
def mapFrom {α β : Type} (f : Nat → α → β) : Nat → List α → List β
  | _, [] => []
  | i, x :: xs => f i x :: mapFrom f (i + 1) xs

theorem mapFrom_length {α β : Type} (f : Nat → α → β) (i : Nat) (l : List α) : (mapFrom f i l).length = l.length := by
  induction l generalizing i with
  | nil => rfl
  | cons x xs ih => simp [mapFrom, ih]

/-- Map every entry of a fixed table, with its number. -/
def mapNum {α β : Type} {n : Nat} (f : Nat → α → β) (v : Vector α n) : Vector β n :=
  ⟨⟨mapFrom f 0 v.toList⟩, by simp [mapFrom_length]⟩

/-- A fixed table of `m` entries `x` and then `n` entries `y`. -/
def twoParts {α : Type} (m n : Nat) (x y : α) : Vector α (m + n) :=
  ⟨⟨List.replicate m x ++ List.replicate n y⟩, by simp⟩

/-- Records by number, numbers rising. A number not listed is free. -/
abbrev Table (α : Type) := List (Nat × α)

/-- The record of number `k`, if it is not free. -/
def Table.find {α : Type} (k : Nat) : Table α → Option α
  | [] => none
  | (j, x) :: rest => if k = j then some x else Table.find k rest

/-- Whether number `k` holds a record. -/
def Table.has {α : Type} (k : Nat) (t : Table α) : Bool := (t.find k).isSome

/-- Write the record of number `k`, in its place by number. -/
def Table.insert {α : Type} (k : Nat) (x : α) : Table α → Table α
  | [] => [(k, x)]
  | (j, y) :: rest =>
    if k < j then (k, x) :: (j, y) :: rest
    else if k = j then (k, x) :: rest
    else (j, y) :: Table.insert k x rest

/-- Free number `k`. -/
def Table.erase {α : Type} (k : Nat) : Table α → Table α
  | [] => []
  | (j, y) :: rest => if k = j then Table.erase k rest else (j, y) :: Table.erase k rest

/-- Change the record of number `k` if there is one. -/
def Table.modify {α : Type} (k : Nat) (f : α → α) : Table α → Table α
  | [] => []
  | (j, y) :: rest => (j, if k = j then f y else y) :: Table.modify k f rest

/-- Change every record. -/
def Table.mapAll {α : Type} (f : α → α) : Table α → Table α
  | [] => []
  | (j, y) :: rest => (j, f y) :: Table.mapAll f rest

/-- Keep the records that satisfy `p`. -/
def Table.keep {α : Type} (p : Nat → α → Bool) : Table α → Table α
  | [] => []
  | (j, y) :: rest => if p j y then (j, y) :: Table.keep p rest else Table.keep p rest

/-- The numbers in use, rising. -/
def Table.ids {α : Type} (t : Table α) : List Nat := t.map (·.1)

/-- The lowest number in use that is at or above `k` (R128, R163 with the search flag). -/
def Table.firstFrom {α : Type} (k : Nat) : Table α → Option (Nat × α)
  | [] => none
  | (j, y) :: rest => if k ≤ j then some (j, y) else Table.firstFrom k rest

/-- The canonical form: numbers strictly rising. -/
def Table.wf {α : Type} : Table α → Bool
  | [] => true
  | [_] => true
  | (j, _) :: (k, y) :: rest => decide (j < k) && Table.wf ((k, y) :: rest)

end Sys2Proof.Machine
end

