-- ==== Sys2Proof/Machine/State.lean ====
section
/-! DEFINITION. The state of the part, block by block, as INVENTORY.md lists it, and its value after reset. Fields the
manual does not name are marked "model" and have a log entry; fields it implies and does not list are those of log 33.
-/

namespace Sys2Proof.Machine

/-! ## RTU, chapter 1 -/

/-- Reference mode. -/
inductive RefMode
  | lock
  | free
deriving DecidableEq, Repr, Inhabited

/-- The standards, in the order of the table of R3. -/
inductive Standard
  | fps23976
  | fps24
  | fps25
  | fps2997
  | fps30
  | fps50
  | fps5994
  | fps60
deriving DecidableEq, Repr, Inhabited

/-- Field mode (R1). -/
inductive FieldMode
  | progressive
  | fieldLine
  | pulsePhase
deriving DecidableEq, Repr, Inhabited

/-- Field polarity (R1). -/
inductive FieldPolarity
  | normal
  | inverted
deriving DecidableEq, Repr, Inhabited

/-- Generator state (R6 to R15). -/
inductive GenState
  | freerun
  | acquiring
  | locked
  | holdover
deriving DecidableEq, Repr, Inhabited

/-- Acquisition origin (R6, R14): the state that an abandoned acquisition returns to. -/
inductive AcqOrigin
  | freerun
  | holdover
deriving DecidableEq, Repr, Inhabited

/-- Causes of REFERENCE_STATE (R15). -/
inductive RefCause
  | acquired
  | abandoned
  | late
  | outOfTolerance
  | referenceSeen
  | holdoverExpired
  | settings
deriving DecidableEq, Repr

/-- The Reference Timing Unit. -/
structure Rtu where
  mode : RefMode
  standard : Standard
  fieldMode : FieldMode
  polarity : FieldPolarity
  holdoverLimit : Nat
  gen : GenState
  counter : BitVec 32
  /-- Tick position as of the last command that carried a time (log 4). -/
  tick : Nat
  period : Nat
  lastMeasured : Nat
  acqCount : Nat
  acqOrigin : AcqOrigin
  holdoverCount : Nat
  gapCount : Nat
  warned : Bool
  lastSlip : Int
  /-- Moment of the previous reference frame start (R2). -/
  prevStart : Option Nat
  /-- Moment of the previous on-time start (R12). -/
  onTime : Nat
  /-- Moment of the most recent line pulse, and the interval of the two most recent (R1). -/
  lastLine : Option Nat
  linePeriod : Option Nat
  /-- Whether this acquisition has its first start, and the period measured at its previous start (R6, R7). -/
  acqStarted : Bool
  acqPrev : Option Nat
  /-- The slip of the lengthened slip frame in progress (R10, R11). -/
  slip : Option Nat
  /-- Model: clock in ns; the moment and tick from which ticks are paced; the tick at which the frame is due to end. -/
  now : Nat
  baseTime : Nat
  tickBase : Nat
  endTick : Nat
deriving DecidableEq, Repr

/-! ## CPH, chapter 2 -/

/-- Tally source. -/
inductive TallySource
  | line
  | link
deriving DecidableEq, Repr, Inhabited

/-- Line polarity of a camera. -/
inductive LinePolarity
  | activeLow
  | activeHigh
deriving DecidableEq, Repr, Inhabited

/-- One camera: its profile (R27), its link tally (R21) and its raw tally (R19). -/
structure Camera where
  phase : Nat
  preferred : Bool
  source : TallySource
  polarity : LinePolarity
  linkTally : Bool
  raw : Bool
deriving DecidableEq, Repr, Inhabited

/-- The Camera Phase Unit. -/
structure Cph where
  cameras : Vector Camera 8
  idlePhase : Nat
  slewLimit : Nat
  winner : Option Nat
  target : Nat
  phase : Nat
  /-- Input pins: the tally line levels as last given by a command that carries them (log 5). -/
  lines : BitVec 8
deriving DecidableEq, Repr

/-! ## FSC, chapters 3 and 4 -/

/-- Rank state (R33). -/
inductive RankState
  | unknown
  | present
  | absent
  | failed
deriving DecidableEq, Repr, Inhabited

/-- Fault cause of a FAILED rank (R33). -/
inductive RankCause
  | size
  | pattern
deriving DecidableEq, Repr

/-- Rank record; the size is in MiB. -/
structure Rank where
  state : RankState
  size : Option Nat
  base : Option Nat
  pages : Nat
  cause : Option RankCause
  firstBad : Option Nat
deriving DecidableEq, Repr, Inhabited

/-- Store state (R32, R34). -/
inductive StoreState
  | sizing
  | ready
  | noMemory
deriving DecidableEq, Repr, Inhabited

/-- Region kind (R36). -/
inductive RegionKind
  | still
  | live
deriving DecidableEq, Repr, Inhabited

/-- Region record (R36); the id is its number in the table. -/
structure Region where
  kind : RegionKind
  base : Nat
  width : Nat
  height : Nat
  protect : Bool
  blockPages : Nat
  pages : Nat
  air : Nat
  ref : Nat
  posted : Nat
deriving DecidableEq, Repr, Inhabited

/-- What a posting entry writes (R51). -/
inductive PostKind
  | write (offset : Nat) (pixels : List Word)
  | fill (rect : Rect) (colour : Rgb)
deriving DecidableEq, Repr

/-- Posting entry (R51). -/
structure PostEntry where
  region : Nat
  kind : PostKind
  done : Nat
deriving DecidableEq, Repr

/-- Cause of a discard (R56). -/
inductive DiscardCause
  | onAir
  | bound
deriving DecidableEq, Repr

/-- The last discard record: the fields of its WRITE_DISCARDED (R60). -/
structure Discard where
  region : Nat
  isFill : Bool
  cause : DiscardCause
  offset : Nat
  dropped : Nat
  counter : BitVec 32
deriving DecidableEq, Repr

/-- The external DRAM as a canonical list of bytes: addresses strictly rising and no entry equal to what an unlisted
address reads as (log 8). -/
abbrev Memory := List Host.Cell

/-- The Frame Store Controller. -/
structure Fsc where
  ranks : Vector Rank 4
  store : StoreState
  sizingAt : Nat
  pageTotal : Nat
  regions : Table Region
  showLock : Bool
  posting : List PostEntry
  discards : Nat
  lastDiscard : Option Discard
  mem : Memory
deriving DecidableEq, Repr

/-! ## LIP, chapter 5 -/

/-- State of the live port (R69, R70). -/
inductive LiveState
  | off
  | searching
  | running
  | lost
deriving DecidableEq, Repr, Inhabited

/-- Causes of LIVE_STATE (R71). -/
inductive LiveCause
  | settings
  | feedFound
  | feedLost
  | feedSeen
deriving DecidableEq, Repr

/-- Latch kind (R72). -/
inductive LatchKind
  | frame
  | held
deriving DecidableEq, Repr

/-- A latch table entry that names a buffer. -/
structure Latch where
  buffer : Nat
  kind : LatchKind
deriving DecidableEq, Repr

/-- Where capture stands in an input frame: no frame; a frame started with no line strobe yet; within a line; every
pixel received and the last of them not yet written; the rest of the frame ignored (R67, R68). -/
inductive CapturePhase
  | idle
  | started
  | line
  | received
  | over
deriving DecidableEq, Repr, Inhabited

/-- What of an input frame has been received: the line, and how many of its pixels (R67). -/
structure Capture where
  phase : CapturePhase
  line : Nat
  pixel : Nat
deriving DecidableEq, Repr, Inhabited

/-- A pixel counted and waiting for a live capture access (R67). -/
structure CapturePixel where
  buffer : Nat
  offset : Nat
  word : Word
deriving DecidableEq, Repr

/-- The Live Input Port. `progress` is capture progress: IDLE (none), or the line reached and how many of its pixels have
been written, of the frame that started last (R67, R74; log 40). `earlier` counts the waiting pixels, at the front of
the queue, of frames that started before that one. -/
structure Lip where
  bound : Option Nat
  port : LiveState
  writer : Option Nat
  newest : Option Nat
  shown : Bool
  latch : Vector (Option Latch) 16
  capture : Capture
  queue : List CapturePixel
  earlier : Nat
  progress : Option (Nat × Nat)
  consecutive : Nat
  silence : Nat
  complete : Nat
  short : Nat
  skipped : Nat
  dropped : Nat
deriving DecidableEq, Repr

/-! ## WSE, chapters 6 and 7 -/

/-- Wall mode (R84 to R86). -/
inductive WallMode
  | normal
  | blank
  | freeze
  | test
deriving DecidableEq, Repr, Inhabited

/-- Test pattern (R86). -/
inductive Pattern
  | bars75
  | bars100
  | tileId
  | flat (colour : Rgb)
deriving DecidableEq, Repr, Inhabited

/-- Current parameters of a layer (R79, R80). -/
structure Layer where
  source : Option Nat
  rect : Rect
  px : Int
  py : Int
deriving DecidableEq, Repr, Inhabited

/-- A layer as a frozen wall holds it (R85). -/
structure HeldLayer where
  layer : Layer
  opacity : Nat
  buffer : Option Nat
deriving DecidableEq, Repr, Inhabited

/-- Held parameters of a frozen wall (R85). -/
structure Held where
  layers : Vector HeldLayer 4
  brightness : Nat
deriving DecidableEq, Repr

/-- Outcome of the admission for a layer (R91). -/
inductive Admission
  | admitted
  | shed
  | inactive
deriving DecidableEq, Repr, Inhabited

/-- A layer of the frame in progress (R81, R91). `region` is the record of its source as it stood at the boundary: the
layer shows its old source for the whole frame (R80), also when that region is deleted meanwhile (log 35). -/
structure FrameLayer where
  layer : Layer
  opacity : Nat
  buffer : Option Nat
  region : Option Region
  visible : Nat
  admission : Admission
deriving DecidableEq, Repr, Inhabited

/-- Frame parameters of a wall (R81). -/
structure FrameParams where
  mode : WallMode
  pattern : Pattern
  layers : Vector FrameLayer 4
  brightness : Nat
deriving DecidableEq, Repr

/-- Wall record. -/
structure Wall where
  width : Nat
  height : Nat
  refresh : Nat
  background : Rgb
  mode : WallMode
  pattern : Pattern
  pending : Option (WallMode × Pattern)
  layers : Vector Layer 4
  held : Option Held
  shedding : Bool
  clipFlag : Bool
  shedFlag : Bool
  /-- Parameters of the frame in progress; none before the wall's first boundary (R77). -/
  frame : Option FrameParams
  /-- The wall values composed so far in the frame in progress, in raster order (R98). -/
  picture : List Rgb
  /-- The latch instants of the frame in progress that have been reached, by index (R25). -/
  reached : List Nat
deriving DecidableEq, Repr

/-- Tile orientation (R102). -/
inductive Orientation
  | normal
  | turned
deriving DecidableEq, Repr, Inhabited

/-- Tile correction (R99). -/
structure Correction where
  gainR : Nat
  gainG : Nat
  gainB : Nat
  offset : Nat
  clip : Nat
deriving DecidableEq, Repr

/-- Tile record (R87). -/
structure Tile where
  wall : Nat
  chain : Nat
  position : Nat
  rect : Rect
  orientation : Orientation
  correction : Correction
deriving DecidableEq, Repr

/-- Chain state (R90). -/
inductive ChainState
  | idle
  | ok
  | fault
deriving DecidableEq, Repr, Inhabited

/-- One tile chain. -/
structure Chain where
  state : ChainState
  misses : Nat
  echoes : Nat
  /-- It has carried tiles for the whole of the frame so far (R90). -/
  whole : Bool
  /-- Check word sent in this frame, and the words returned in it (R89, R90). -/
  sent : Option Nat
  returned : List Nat
  /-- Output data of the last sub-frame sent, tile by tile in chain order; empty is low (R89). -/
  out : List (Nat × List Rgb)
deriving DecidableEq, Repr, Inhabited

/-- Averages of a zone: R, G, B and luma (R106). -/
structure Averages where
  r : Nat
  g : Nat
  b : Nat
  y : Nat
deriving DecidableEq, Repr

/-- Zone record (chapter 7, Zones). -/
structure Zone where
  wall : Nat
  rect : Rect
  sumR : Nat
  sumG : Nat
  sumB : Nat
  taken : Nat
  last : Option Averages
  lastFrame : Option (BitVec 32)
  /-- It is measured over the frame in progress (R93, R105). -/
  measuring : Bool
  /-- Its zone-complete event of this frame has been raised (R106). -/
  raised : Bool
deriving DecidableEq, Repr

/-- The Wall Scan Engine. -/
structure Wse where
  walls : Table Wall
  total : Nat
  tiles : Table Tile
  frameTiles : Table Tile
  chains : Vector Chain 8
  zones : Table Zone
deriving DecidableEq, Repr

/-! ## CUE, chapter 8 -/

/-- A stored action (R110). -/
inductive Action
  | layerSource (wall layer : Nat) (source : Option Nat) (rect : Rect) (px py : Int)
  | layerFade (wall layer level duration curve : Nat)
  | wallFade (wall level duration curve : Nat)
  | levelFade (first count level duration curve : Nat)
  | masterFade (level duration curve : Nat)
  | wallMode (wall : Nat) (mode : WallMode) (pattern : Pattern)
deriving DecidableEq, Repr

/-- An action with its delay. -/
structure TimedAction where
  delay : Nat
  action : Action
deriving DecidableEq, Repr

/-- Trigger of a cue (R109). -/
inductive Trigger
  | go
  | follow (delay : Nat)
  | tally (camera : Nat)
deriving DecidableEq, Repr

/-- Cue record; the number is its number in the table. -/
structure Cue where
  trigger : Trigger
  actions : List TimedAction
deriving DecidableEq, Repr

/-- Source of a pending fire request (R115). -/
inductive AskSource
  | go
  | goCue
deriving DecidableEq, Repr

/-- Source of a firing (R120). -/
inductive FireSource
  | go
  | goCue
  | follow
  | tally (camera : Nat)
deriving DecidableEq, Repr

/-- Wait entry (R120); owner `none` after a supersession (R124). -/
structure WaitEntry where
  action : Action
  position : Nat
  owner : Option Nat
  remaining : Nat
deriving DecidableEq, Repr

/-- Active record (R123). -/
structure Active where
  cue : Nat
  fireFrame : BitVec 32
  outstanding : Nat
deriving DecidableEq, Repr

/-- Running follow timer (R125), with the delay it started with (R129). -/
structure Follow where
  remaining : Nat
  start : Nat
deriving DecidableEq, Repr

/-- Cause of CUE_COMPLETE (R123, R124). -/
inductive CompleteCause
  | done
  | superseded
deriving DecidableEq, Repr

/-- The Cue Engine; `active` is in firing order. -/
structure CueEngine where
  cues : Table Cue
  standby : Option Nat
  pending : Option (Nat × AskSource)
  hold : Bool
  step : Option Nat
  waits : List WaitEntry
  active : List Active
  recent : Option Nat
  follow : Option Follow
  waitOverflow : Bool
deriving DecidableEq, Repr

/-! ## LVP, chapter 9 -/

/-- Owner of a fade (R132). -/
inductive Owner
  | cue (n : Nat)
  | manual
deriving DecidableEq, Repr

/-- A running fade (R132); its target is its number in the fade table. -/
structure Fade where
  start : Nat
  stop : Nat
  duration : Nat
  elapsed : Nat
  curve : Nat
  owner : Owner
deriving DecidableEq, Repr

/-- A pending manual fade (R138). -/
structure ManualFade where
  target : Nat
  level : Nat
  duration : Nat
  curve : Nat
deriving DecidableEq, Repr

/-- Channel mode (R141). -/
inductive ChannelMode
  | fade
  | track
  | sum
deriving DecidableEq, Repr, Inhabited

/-- Component tracked (R141). -/
inductive Component
  | r
  | g
  | b
  | y
deriving DecidableEq, Repr, Inhabited

/-- Level channel (R141); its fade level is its level target. -/
structure Channel where
  mode : ChannelMode
  zone : Nat
  component : Component
  gain : Nat
  smoothing : Nat
  tracked : Nat
  mix : Nat
  output : Nat
  sat : Bool
deriving DecidableEq, Repr, Inhabited

/-- The Level Processor. -/
structure Lvp where
  targets : Vector Nat 789
  fades : Table Fade
  manual : List ManualFade
  curves : Vector (Vector Nat 17) 4
  channels : Vector Channel 768
  fadeOverflow : Bool
deriving DecidableEq, Repr

/-! ## FBC, chapter 10 -/

/-- Port state (R147 to R155). -/
inductive PortState
  | off
  | joining
  | normal
  | passive
  | detached
deriving DecidableEq, Repr, Inhabited

/-- Causes of PORT_STATE (R149). -/
inductive PortCause
  | enabled
  | joined
  | disabled
  | errors
  | recovered
deriving DecidableEq, Repr

/-- Receive filter (R156). -/
structure Filter where
  value : Nat
  mask : Nat
  enabled : Bool
deriving DecidableEq, Repr, Inhabited

/-- Transmit queue entry (R161): SENDING holds its snapshot; an orphan's fixture was deleted (R160). -/
structure QueueEntry where
  fixture : Nat
  snapshot : Option (List Nat)
  orphan : Bool
deriving DecidableEq, Repr

/-- What the port puts on its line for the bus frame in progress, or for the last one: nothing; the bits of its own
frame (true is recessive); the acknowledgement slot of a frame it received (R152); an error mark, after which it waits
for the delimiter (R153), and before it, where bit `endBit` of the end field of a frame that it acknowledged read
dominant, that acknowledgement (R152). -/
inductive LineDrive
  | released
  | sending (bits : List Bool)
  | ack
  | mark (dominant : Bool) (endBit : Nat)
deriving DecidableEq, Repr, Inhabited

/-- One fixture bus port. -/
structure BusPort where
  enabled : Bool
  rate : Nat
  state : PortState
  txe : Nat
  rxe : Nat
  quiet : Nat
  filters : Vector Filter 8
  queue : List QueueEntry
  dirty : List Nat
  lastAdmitted : Nat
  unknown : List Nat
  ignored : Nat
  drive : LineDrive
  lastOwn : Bool
deriving DecidableEq, Repr

/-- Fixture state (R157, R159). -/
inductive FixtureState
  | unseen
  | ok
  | warn
  | fault
  | silent
deriving DecidableEq, Repr, Inhabited

/-- Fixture record (chapter 10, The fixture table). -/
structure Fixture where
  port : Port
  address : Nat
  first : Nat
  count : Nat
  keepAlive : Nat
  silenceLimit : Nat
  state : FixtureState
  temperature : Option Int
  sent : Option (List Nat)
  countdown : Nat
  silence : Nat
  clash : Bool
deriving DecidableEq, Repr

/-- The Fixture Bus Controller. -/
structure Fbc where
  portA : BusPort
  portB : BusPort
  fixtures : Table Fixture
deriving DecidableEq, Repr

/-! ## DOU, chapter 11 -/

/-- Polarity of a dimmer output. -/
inductive DimmerPolarity
  | activeHigh
  | activeLow
deriving DecidableEq, Repr, Inhabited

/-- The four settings of an output (R165). -/
structure DimmerSetting where
  channel : Option Nat
  divisor : Nat
  minWidth : Nat
  polarity : DimmerPolarity
deriving DecidableEq, Repr, Inhabited

/-- Output record. `driven` is the polarity the pin is driven with, `period` the index of the period in progress and
`level` the channel output read at the last period start (R165, R169). `ends` is the tick, counted from the start of
the frame in progress, at which the width of the pulse will have passed (R167), and `reached` holds the indices of the
period starts of the frame in progress that have been reached (R26). -/
structure Dimmer where
  setting : DimmerSetting
  pending : Option DimmerSetting
  width : Nat
  active : Bool
  driven : DimmerPolarity
  period : Option Nat
  level : Nat
  ends : Nat
  reached : List Nat
deriving DecidableEq, Repr, Inhabited

/-- The Dimmer Output Unit. -/
structure Dou where
  outputs : Vector Dimmer 16
deriving DecidableEq, Repr

/-! ## LKD, chapter 12 -/

/-- Reply status codes (chapter 12, Reply status codes). -/
inductive Status
  | ok
  | unknown
  | length
  | range
  | noSuch
  | exists_
  | inUse
  | onAir
  | locked
  | full
  | busy
  | wrongState
  | notPending
  | notReady
deriving DecidableEq, Repr

/-- A field of a reply or notice body: its size and its value (chapter 12, Fields not laid out above). `none1` and
its like are the value NONE: every bit set, or in a signed field the most negative value. -/
inductive Field
  | u1 (n : Nat)
  | u2 (n : Nat)
  | u4 (n : Nat)
  | i2 (z : Int)
  | none1
  | none2
  | none4
  | noneI2
  | word (w : Word)
deriving DecidableEq, Repr

/-- Notice classes (R175). -/
inductive NoticeClass
  | timing
  | store
  | wall
  | cue
  | fixture
  | bus
deriving DecidableEq, Repr

/-- Notice kinds (R175, R176). -/
inductive NoticeKind
  | noticesDropped
  | referenceState
  | wrongStandard
  | frameSlip
  | cameraChange
  | rankFault
  | storeReady
  | writeDiscarded
  | liveState
  | chainState
  | loadShed
  | cueFired
  | cueComplete
  | actionSkipped
  | fixtureState
  | addressClash
  | portState
  | unknownSource
deriving DecidableEq, Repr

/-- A notice: its kind, the frame counter at which it was formed, its details (chapter 12, Notice body). -/
structure Notice where
  kind : NoticeKind
  counter : BitVec 32
  details : List Field
deriving DecidableEq, Repr

/-- A reply: the tag and kind of its request, the status, and the fields of an OK body (R173). -/
structure Reply where
  tag : Byte
  kind : Byte
  status : Status
  fields : List Field
deriving DecidableEq, Repr

/-- A frame ready to be transmitted (R174). -/
inductive OutFrame
  | reply (r : Reply)
  | notice (n : Notice)
deriving DecidableEq, Repr

/-- Receive state (R171): in a frame, the bytes received after the marker, in order. -/
inductive RxState
  | hunting
  | inFrame (bytes : List Byte)
deriving DecidableEq, Repr

/-- A request in the request queue: one whose body has the layout of its kind, or is of no catalogue kind, as the
command it spells; or one of a catalogue kind whose body has the wrong length (R173). -/
inductive QueuedRequest
  | command (i : Instr)
  | badLength (tag kind : Byte)
deriving DecidableEq, Repr

/-- Scope of RESET (R179). -/
inductive ResetScope
  | link
  | full
deriving DecidableEq, Repr

/-- Why the LKD takes no later request: a write or fill at the head waits for a place (R53); a deletion at the head
waits for its entries to drain (R42); a read at the head waits for its region's entries (R61), or has proceeded and
waits for its access (R62); a RESET's reply waits to be sent, or has been sent and the reset is due (R179). -/
inductive Hold
  | free
  | place
  | drain
  | readDrain
  | readGrant
  | resetReply (scope : ResetScope)
  | resetDue (scope : ResetScope)
deriving DecidableEq, Repr

/-- The set of notice classes that are raised. -/
structure NoticeMask where
  timing : Bool
  store : Bool
  wall : Bool
  cue : Bool
  fixture : Bool
  bus : Bool
deriving DecidableEq, Repr

/-- The Link Dispatcher. `ready` holds replies and notices in the order in which they became ready; the notice queue
is the notices in it. -/
structure Lkd where
  straps : BitVec 2
  rx : RxState
  requests : List QueuedRequest
  hold : Hold
  ready : List OutFrame
  mask : NoticeMask
  dropped : Nat
  linkErrors : Nat
  /-- Model: the frame last put on the transmit line (log 16). -/
  sent : Option OutFrame
  /-- Model: how many bits of `sent` had gone out when the reset pin cut it off (R180); none where it goes out whole
  (log 16). -/
  sentCut : Option Nat
  /-- Model: how many free choices between a reply and a notice were made (log 15). -/
  choice : Nat
deriving DecidableEq, Repr

/-! ## The part -/

/-- The whole state. -/
structure State where
  rtu : Rtu
  cph : Cph
  fsc : Fsc
  lip : Lip
  wse : Wse
  cue : CueEngine
  lvp : Lvp
  fbc : Fbc
  dou : Dou
  lkd : Lkd
  /-- Model: the commands waiting, first in, first out. -/
  pending : List Instr
deriving DecidableEq, Repr

/-- Why the machine stops with a fault. -/
inductive Fault
  /-- Raised by the commands that access the DRAM (DRAM_ACCESS_GRANT, BURST_GRANT, CONTENT_READ_GRANT, LATCH_INSTANT,
  INPUT_FRAME_COMPLETE) when the region accessed reaches past the page total, that is, at an address that does not
  exist (R34). Safe: R37 defines no such region. -/
  | outsideStore
deriving DecidableEq, Repr

/-- Why a command has no meaning. -/
inductive Refusal
  /-- Raised by no command: every row has its meaning. Safe. -/
  | notModelled (mnemonic : String)
deriving DecidableEq, Repr

/-! ## Reset values -/

/-- R18. -/
def Rtu.reset : Rtu where
  mode := .lock
  standard := .fps5994
  fieldMode := .progressive
  polarity := .normal
  holdoverLimit := 50
  gen := .freerun
  counter := 0
  tick := 0
  period := 16683333
  lastMeasured := 0
  acqCount := 0
  acqOrigin := .freerun
  holdoverCount := 0
  gapCount := 0
  warned := false
  lastSlip := 0
  prevStart := none
  onTime := 0
  lastLine := none
  linePeriod := none
  acqStarted := false
  acqPrev := none
  slip := none
  now := 0
  baseTime := 0
  tickBase := 0
  endTick := 65536

/-- R31, the profile table. -/
def Camera.reset : Camera where
  phase := 0
  preferred := false
  source := .line
  polarity := .activeLow
  linkTally := false
  raw := false

/-- R31. -/
def Cph.reset : Cph where
  cameras := Vector.replicate 8 Camera.reset
  idlePhase := 0
  slewLimit := 16
  winner := none
  target := 0
  phase := 0
  lines := 0xFF

/-- R32. -/
def Rank.reset : Rank where
  state := .unknown
  size := none
  base := none
  pages := 0
  cause := none
  firstBad := none

/-- R32, R50, R64. -/
def Fsc.reset : Fsc where
  ranks := Vector.replicate 4 Rank.reset
  store := .sizing
  sizingAt := 0
  pageTotal := 0
  regions := []
  showLock := false
  posting := []
  discards := 0
  lastDiscard := none
  mem := []

/-- R75. -/
def Lip.reset : Lip where
  bound := none
  port := .off
  writer := none
  newest := none
  shown := false
  latch := Vector.replicate 16 none
  capture := { phase := .idle, line := 0, pixel := 0 }
  queue := []
  earlier := 0
  progress := none
  consecutive := 0
  silence := 0
  complete := 0
  short := 0
  skipped := 0
  dropped := 0

/-- R95. -/
def Chain.reset : Chain where
  state := .idle
  misses := 0
  echoes := 0
  whole := false
  sent := none
  returned := []
  out := []

/-- R95, R108. -/
def Wse.reset : Wse where
  walls := []
  total := 0
  tiles := []
  frameTiles := []
  chains := Vector.replicate 8 Chain.reset
  zones := []

/-- R130. -/
def CueEngine.reset : CueEngine where
  cues := []
  standby := none
  pending := none
  hold := false
  step := none
  waits := []
  active := []
  recent := none
  follow := none
  waitOverflow := false

/-- R136: curve 0, and the default of curves 2 and 3. -/
def Curve.linear : Vector Nat 17 :=
  #v[0, 4096, 8192, 12288, 16384, 20480, 24576, 28672, 32768, 36864, 40960, 45056, 49152, 53248, 57344, 61440, 65535]

/-- R136: the default of curve 1. -/
def Curve.smooth : Vector Nat 17 :=
  #v[0, 640, 2560, 5760, 10240, 16000, 23040, 28800, 32768, 36735, 42495, 49535, 55295, 59775, 62975, 64895, 65535]

/-- R146. -/
def Channel.reset : Channel where
  mode := .fade
  zone := 0
  component := .y
  gain := 256
  smoothing := 256
  tracked := 0
  mix := 0
  output := 0
  sat := false

/-- R146: channel fade levels 0, opacities, brightnesses and the master 65535. -/
def Lvp.resetTargets : Vector Nat 789 :=
  twoParts 768 21 0 65535

/-- R146. -/
def Lvp.reset : Lvp where
  targets := Lvp.resetTargets
  fades := []
  manual := []
  curves := #v[Curve.linear, Curve.smooth, Curve.linear, Curve.linear]
  channels := Vector.replicate 768 Channel.reset
  fadeOverflow := false

/-- R156, the filter table. -/
def Filter.resetAll : Vector Filter 8 :=
  #v[⟨512, 512, true⟩, ⟨0, 512, true⟩, ⟨0, 0, false⟩, ⟨0, 0, false⟩, ⟨0, 0, false⟩, ⟨0, 0, false⟩, ⟨0, 0, false⟩,
    ⟨0, 0, false⟩]

/-- R164. -/
def BusPort.reset : BusPort where
  enabled := false
  rate := 250
  state := .off
  txe := 0
  rxe := 0
  quiet := 0
  filters := Filter.resetAll
  queue := []
  dirty := []
  lastAdmitted := 191
  unknown := []
  ignored := 0
  drive := .released
  lastOwn := false

/-- R164. -/
def Fbc.reset : Fbc where
  portA := BusPort.reset
  portB := BusPort.reset
  fixtures := []

/-- R169. -/
def DimmerSetting.reset : DimmerSetting where
  channel := none
  divisor := 1
  minWidth := 0
  polarity := .activeHigh

/-- R169. -/
def Dimmer.reset : Dimmer where
  setting := DimmerSetting.reset
  pending := none
  width := 0
  active := false
  driven := .activeHigh
  period := none
  level := 0
  ends := 0
  reached := []

/-- R169. -/
def Dou.reset : Dou where
  outputs := Vector.replicate 16 Dimmer.reset

/-- All six classes (R180). -/
def NoticeMask.all : NoticeMask where
  timing := true
  store := true
  wall := true
  cue := true
  fixture := true
  bus := true

/-- R180; the straps are the model's (log 17). -/
def Lkd.reset : Lkd where
  straps := 0
  rx := .hunting
  requests := []
  hold := .free
  ready := []
  mask := NoticeMask.all
  dropped := 0
  linkErrors := 0
  sent := none
  sentCut := none
  choice := 0

/-- The part right after a full reset, with no command waiting. -/
def State.reset : State where
  rtu := Rtu.reset
  cph := Cph.reset
  fsc := Fsc.reset
  lip := Lip.reset
  wse := Wse.reset
  cue := CueEngine.reset
  lvp := Lvp.reset
  fbc := Fbc.reset
  dou := Dou.reset
  lkd := Lkd.reset
  pending := []

end Sys2Proof.Machine
end

