-- ==== Sys2Proof/Machine/Operands.lean ====
section
/-! DEFINITION. The operand forms: codes of named values in requests, replies and notices (each value is coded by its
position in the list or table where its chapter first gives the values: chapter 12, Fields not laid out above), the
clamps, and how an absent optional field keeps its value. -/

namespace Sys2Proof.Machine

/-! ## Codes read from a request -/

/-- The settings table of chapter 1. -/
def RefMode.ofCode : Nat → Option RefMode
  | 0 => some .lock
  | 1 => some .free
  | _ => none

/-- The row of the table of R3. -/
def Standard.ofCode : Nat → Option Standard
  | 0 => some .fps23976
  | 1 => some .fps24
  | 2 => some .fps25
  | 3 => some .fps2997
  | 4 => some .fps30
  | 5 => some .fps50
  | 6 => some .fps5994
  | 7 => some .fps60
  | _ => none

/-- The settings table of chapter 1. -/
def FieldMode.ofCode : Nat → Option FieldMode
  | 0 => some .progressive
  | 1 => some .fieldLine
  | 2 => some .pulsePhase
  | _ => none

/-- The settings table of chapter 1. -/
def FieldPolarity.ofCode : Nat → Option FieldPolarity
  | 0 => some .normal
  | 1 => some .inverted
  | _ => none

/-- Yes, on and set are coded 1, and no, off and clear 0. -/
def boolOfCode : Nat → Option Bool
  | 0 => some false
  | 1 => some true
  | _ => none

/-- The profile table of chapter 2. -/
def TallySource.ofCode : Nat → Option TallySource
  | 0 => some .line
  | 1 => some .link
  | _ => none

/-- The profile table of chapter 2. -/
def LinePolarity.ofCode : Nat → Option LinePolarity
  | 0 => some .activeLow
  | 1 => some .activeHigh
  | _ => none

/-- The record table of R36. -/
def RegionKind.ofCode : Nat → Option RegionKind
  | 0 => some .still
  | 1 => some .live
  | _ => none

/-- The wall record table of chapter 6. -/
def WallMode.ofCode : Nat → Option WallMode
  | 0 => some .normal
  | 1 => some .blank
  | 2 => some .freeze
  | 3 => some .test
  | _ => none

/-- The wall record table of chapter 6; the colour counts for FLAT. -/
def Pattern.ofCode (code : Nat) (colour : Rgb) : Option Pattern :=
  match code with
  | 0 => some .bars75
  | 1 => some .bars100
  | 2 => some .tileId
  | 3 => some (.flat colour)
  | _ => none

/-- The tile table of chapter 6. -/
def Orientation.ofCode : Nat → Option Orientation
  | 0 => some .normal
  | 1 => some .turned
  | _ => none

/-- R141. -/
def ChannelMode.ofCode : Nat → Option ChannelMode
  | 0 => some .fade
  | 1 => some .track
  | 2 => some .sum
  | _ => none

/-- R141. -/
def Component.ofCode : Nat → Option Component
  | 0 => some .r
  | 1 => some .g
  | 2 => some .b
  | 3 => some .y
  | _ => none

/-- Chapter 10: ports A and B. -/
def portOfCode : Nat → Option Port
  | 0 => some .a
  | 1 => some .b
  | _ => none

/-- The port table of chapter 10: 250, 500, 1000 kbit/s. -/
def rateOfCode : Nat → Option Nat
  | 0 => some 250
  | 1 => some 500
  | 2 => some 1000
  | _ => none

/-- The output table of chapter 11. -/
def DimmerPolarity.ofCode : Nat → Option DimmerPolarity
  | 0 => some .activeHigh
  | 1 => some .activeLow
  | _ => none

/-- R179. -/
def ResetScope.ofCode : Nat → Option ResetScope
  | 0 => some .link
  | 1 => some .full
  | _ => none

/-- The condition codes of a status frame (R150, R157). -/
def conditionOfCode : Nat → Option FixtureState
  | 0 => some .ok
  | 1 => some .warn
  | 2 => some .fault
  | _ => none

/-! ## Codes written into a reply or a notice -/

/-- Yes, on and set are coded 1. -/
def boolCode (b : Bool) : Nat := if b then 1 else 0

/-- The settings table of chapter 1. -/
def RefMode.code : RefMode → Nat
  | .lock => 0
  | .free => 1

/-- The row of the table of R3. -/
def Standard.code : Standard → Nat
  | .fps23976 => 0
  | .fps24 => 1
  | .fps25 => 2
  | .fps2997 => 3
  | .fps30 => 4
  | .fps50 => 5
  | .fps5994 => 6
  | .fps60 => 7

/-- The settings table of chapter 1. -/
def FieldMode.code : FieldMode → Nat
  | .progressive => 0
  | .fieldLine => 1
  | .pulsePhase => 2

/-- The settings table of chapter 1. -/
def FieldPolarity.code : FieldPolarity → Nat
  | .normal => 0
  | .inverted => 1

/-- The state table of chapter 1. -/
def GenState.code : GenState → Nat
  | .freerun => 0
  | .acquiring => 1
  | .locked => 2
  | .holdover => 3

/-- The state table of chapter 1. -/
def AcqOrigin.code : AcqOrigin → Nat
  | .freerun => 0
  | .holdover => 1

/-- The list of R15. -/
def RefCause.code : RefCause → Nat
  | .acquired => 0
  | .abandoned => 1
  | .late => 2
  | .outOfTolerance => 3
  | .referenceSeen => 4
  | .holdoverExpired => 5
  | .settings => 6

/-- The profile table of chapter 2. -/
def TallySource.code : TallySource → Nat
  | .line => 0
  | .link => 1

/-- The profile table of chapter 2. -/
def LinePolarity.code : LinePolarity → Nat
  | .activeLow => 0
  | .activeHigh => 1

/-- The rank table of chapter 3. -/
def RankState.code : RankState → Nat
  | .unknown => 0
  | .present => 1
  | .absent => 2
  | .failed => 3

/-- The rank table of chapter 3. -/
def RankCause.code : RankCause → Nat
  | .size => 0
  | .pattern => 1

/-- Chapter 3, Ranks and sizing. -/
def StoreState.code : StoreState → Nat
  | .sizing => 0
  | .ready => 1
  | .noMemory => 2

/-- R36. -/
def RegionKind.code : RegionKind → Nat
  | .still => 0
  | .live => 1

/-- R56. -/
def DiscardCause.code : DiscardCause → Nat
  | .onAir => 0
  | .bound => 1

/-- The state table of chapter 5. -/
def LiveState.code : LiveState → Nat
  | .off => 0
  | .searching => 1
  | .running => 2
  | .lost => 3

/-- The list of R71. -/
def LiveCause.code : LiveCause → Nat
  | .settings => 0
  | .feedFound => 1
  | .feedLost => 2
  | .feedSeen => 3

/-- The state table of chapter 5. -/
def LatchKind.code : LatchKind → Nat
  | .frame => 0
  | .held => 1

/-- The wall record table of chapter 6. -/
def WallMode.code : WallMode → Nat
  | .normal => 0
  | .blank => 1
  | .freeze => 2
  | .test => 3

/-- The wall record table of chapter 6. -/
def Pattern.code : Pattern → Nat
  | .bars75 => 0
  | .bars100 => 1
  | .tileId => 2
  | .flat _ => 3

/-- The colour of FLAT; the other patterns have none, and it goes out as 0, 0, 0 (R83, R128; the model's choice: log 23). -/
def Pattern.colour : Pattern → Rgb
  | .flat c => c
  | _ => ⟨0, 0, 0⟩

/-- The tile table of chapter 6. -/
def Orientation.code : Orientation → Nat
  | .normal => 0
  | .turned => 1

/-- R90. -/
def ChainState.code : ChainState → Nat
  | .idle => 0
  | .ok => 1
  | .fault => 2

/-- R94. -/
def Admission.code : Admission → Nat
  | .admitted => 0
  | .shed => 1
  | .inactive => 2

/-- The kinds of the table of R110. -/
def Action.code : Action → Nat
  | .layerSource .. => 0
  | .layerFade .. => 1
  | .wallFade .. => 2
  | .levelFade .. => 3
  | .masterFade .. => 4
  | .wallMode .. => 5

/-- R109. -/
def Trigger.code : Trigger → Nat
  | .go => 0
  | .follow _ => 1
  | .tally _ => 2

/-- R128: the follow delay or the camera of a trigger. For GO the field is 0, not NONE (the model's choice: log 23). -/
def Trigger.arg : Trigger → Nat
  | .go => 0
  | .follow d => d
  | .tally c => c

/-- R115. -/
def AskSource.code : AskSource → Nat
  | .go => 0
  | .goCue => 1

/-- R120. -/
def FireSource.code : FireSource → Nat
  | .go => 0
  | .goCue => 1
  | .follow => 2
  | .tally _ => 3

/-- R123, R124. -/
def CompleteCause.code : CompleteCause → Nat
  | .done => 0
  | .superseded => 1

/-- R141. -/
def ChannelMode.code : ChannelMode → Nat
  | .fade => 0
  | .track => 1
  | .sum => 2

/-- R141. -/
def Component.code : Component → Nat
  | .r => 0
  | .g => 1
  | .b => 2
  | .y => 3

/-- Chapter 10: ports A and B. -/
def portCode : Port → Nat
  | .a => 0
  | .b => 1

/-- The port table of chapter 10. -/
def rateCode (rate : Nat) : Nat := if rate = 250 then 0 else if rate = 500 then 1 else 2

/-- The port table of chapter 10. -/
def PortState.code : PortState → Nat
  | .off => 0
  | .joining => 1
  | .normal => 2
  | .passive => 3
  | .detached => 4

/-- The list of R149. -/
def PortCause.code : PortCause → Nat
  | .enabled => 0
  | .joined => 1
  | .disabled => 2
  | .errors => 3
  | .recovered => 4

/-- The fixture table of chapter 10. -/
def FixtureState.code : FixtureState → Nat
  | .unseen => 0
  | .ok => 1
  | .warn => 2
  | .fault => 3
  | .silent => 4

/-- The output table of chapter 11. -/
def DimmerPolarity.code : DimmerPolarity → Nat
  | .activeHigh => 0
  | .activeLow => 1

/-- R179. -/
def ResetScope.code : ResetScope → Nat
  | .link => 0
  | .full => 1

/-- Chapter 12, Reply status codes. -/
def Status.code : Status → Nat
  | .ok => 0x00
  | .unknown => 0x01
  | .length => 0x02
  | .range => 0x03
  | .noSuch => 0x04
  | .exists_ => 0x05
  | .inUse => 0x06
  | .onAir => 0x07
  | .locked => 0x08
  | .full => 0x09
  | .busy => 0x0A
  | .wrongState => 0x0B
  | .notPending => 0x0C
  | .notReady => 0x0D

/-! ## Optional fields -/

/-- A 1-byte field that may be NONE. -/
def opt1 : Option Nat → Field
  | none => .none1
  | some n => .u1 n

/-- A 2-byte field that may be NONE. -/
def opt2 : Option Nat → Field
  | none => .none2
  | some n => .u2 n

/-- A 4-byte field that may be NONE. -/
def opt4 : Option Nat → Field
  | none => .none4
  | some n => .u4 n

/-- A 4-byte frame counter that may be NONE. -/
def optCounter : Option (BitVec 32) → Field
  | none => .none4
  | some c => .u4 c.toNat

/-- An optional code field keeps the present value when absent; present, it must name a value: `none` where it
names none. -/
def keepOr {α : Type} (present : α) (decode : Nat → Option α) : Option Nat → Option α
  | none => some present
  | some code => decode code

/-- A colour's three components all in 0..1023. -/
def rgbInRange (c : Rgb) : Bool := decide (c.r ≤ 1023) && decide (c.g ≤ 1023) && decide (c.b ≤ 1023)

/-- A coordinate in −8192..8191 (R79). -/
def coordInRange (z : Int) : Bool := decide (-8192 ≤ z) && decide (z ≤ 8191)

/-- A rectangle that is not empty and lies within `width` by `height` pixels. -/
def rectWithin (r : Rect) (width height : Nat) : Bool :=
  decide (r.width ≠ 0) && decide (r.height ≠ 0) && decide (r.x + r.width ≤ width) && decide (r.y + r.height ≤ height)

/-- Pixel (x, y) lies in the rectangle. -/
def rectCovers (r : Rect) (x y : Nat) : Bool :=
  decide (r.x ≤ x) && decide (x < r.x + r.width) && decide (r.y ≤ y) && decide (y < r.y + r.height)

/-- A count that stops at `top`. -/
def satAdd (top n k : Nat) : Nat := min top (n + k)

/-- Take a request of `n` into `lo`..`hi`. -/
def clamp (lo hi n : Nat) : Nat := max lo (min hi n)

end Sys2Proof.Machine
end

