-- ==== Sys2Proof/Machine/Ops.lean ====
section
/-! DEFINITION. The named operations shared by the families: writing one block of the state, raising a notice
(R175, R176), forming a reply and serving the request queue (R172 to R174), reading and writing the DRAM (R34, R36),
and the counts on regions (R39 to R41). -/

namespace Sys2Proof.Machine

/-! ## Writing one block -/

def State.setRtu (s : State) (x : Rtu) : State := { s with rtu := x }
def State.setCph (s : State) (x : Cph) : State := { s with cph := x }
def State.setFsc (s : State) (x : Fsc) : State := { s with fsc := x }
def State.setLip (s : State) (x : Lip) : State := { s with lip := x }
def State.setWse (s : State) (x : Wse) : State := { s with wse := x }
def State.setCue (s : State) (x : CueEngine) : State := { s with cue := x }
def State.setLvp (s : State) (x : Lvp) : State := { s with lvp := x }
def State.setFbc (s : State) (x : Fbc) : State := { s with fbc := x }
def State.setDou (s : State) (x : Dou) : State := { s with dou := x }
def State.setLkd (s : State) (x : Lkd) : State := { s with lkd := x }

/-- The outcome of a command: a next state, a fault or a refusal. -/
abbrev Result := Host.Outcome State Fault Refusal

/-! ## Checks made in order -/

/-- The status of the first check that fails, if any does: the tables of checks of the manual. -/
def firstFailing : List (Bool × Status) → Option Status
  | [] => none
  | (failed, st) :: rest => if failed then some st else firstFailing rest

/-! ## Notices, R175 and R176 -/

/-- The class of a notice kind (R175); NOTICES_DROPPED belongs to none. -/
def NoticeKind.cls : NoticeKind → Option NoticeClass
  | .noticesDropped => none
  | .referenceState | .wrongStandard | .frameSlip | .cameraChange => some .timing
  | .rankFault | .storeReady | .writeDiscarded | .liveState => some .store
  | .chainState | .loadShed => some .wall
  | .cueFired | .cueComplete | .actionSkipped => some .cue
  | .fixtureState | .addressClash => some .fixture
  | .portState | .unknownSource => some .bus

/-- Whether a class is in the mask. -/
def NoticeMask.has (m : NoticeMask) : NoticeClass → Bool
  | .timing => m.timing
  | .store => m.store
  | .wall => m.wall
  | .cue => m.cue
  | .fixture => m.fixture
  | .bus => m.bus

/-- Whether a notice of kind `k` is raised under mask `m`; NOTICES_DROPPED is not subject to the mask (R176). -/
def NoticeMask.passes (m : NoticeMask) (k : NoticeKind) : Bool :=
  match k.cls with
  | none => true
  | some c => m.has c

def OutFrame.isNotice : OutFrame → Bool
  | .notice _ => true
  | .reply _ => false

/-- Occupancy of the notice queue (0..32). -/
def noticeCount (ready : List OutFrame) : Nat := ready.countP OutFrame.isNotice

/-- Put a notice at the tail of the notice queue. -/
def Lkd.append (l : Lkd) (n : Notice) : Lkd := { l with ready := l.ready ++ [.notice n] }

/-- R176, first part: a NOTICES_DROPPED carrying the dropped count enters first, if there is a count and a place. -/
def Lkd.reportDropped (l : Lkd) (counter : BitVec 32) : Lkd :=
  if 0 < l.dropped ∧ noticeCount l.ready < 32 then
    { l.append ⟨.noticesDropped, counter, [.u2 l.dropped]⟩ with dropped := 0 }
  else l

/-- R176, second part: the notice enters if a place is left, and is lost and counted otherwise. -/
def Lkd.enter (l : Lkd) (n : Notice) : Lkd :=
  if noticeCount l.ready < 32 then l.append n else { l with dropped := satAdd 65535 l.dropped 1 }

/-- Raise a notice (R175, R176). -/
def Lkd.raise (l : Lkd) (n : Notice) : Lkd :=
  if l.mask.passes n.kind then (l.reportDropped n.counter).enter n else l

/-- Raise a notice carrying the counter of the frame in progress. -/
def raise (k : NoticeKind) (details : List Field) (s : State) : State :=
  s.setLkd (s.lkd.raise ⟨k, s.rtu.counter, details⟩)

/-! ## Replies and the request queue, R172 to R174 -/

/-- What a block answers to a request handed to it (R173): a reply, formed at once, with the state it leaves; or the
reply is withheld and the request stays at the head, for the reason given. -/
inductive Answer
  | reply (st : Status) (fields : List Field) (s : State)
  | withhold (h : Hold) (s : State)

/-- A refused request leaves the state as it was and its reply holds the status alone (R173). -/
def refuse (st : Status) (s : State) : Answer := .reply st [] s

/-- Refuse with the first check that fails; otherwise carry the request out. -/
def checked (checks : List (Bool × Status)) (s : State) (ok : Answer) : Answer :=
  match firstFailing checks with
  | some st => refuse st s
  | none => ok

/-- Where a reply goes among `n` notices of the same moment, after 0 to `n` of them: the free choice numbered
`choice` (log 15). -/
def replyPlace (choice n : Nat) : Nat := Config.replyPlace choice % (n + 1)

/-- Form a reply (R174). `before` is how many frames were ready before the moment at which it is formed: it goes
before or after each of the notices of the same moment, whichever (log 15). -/
def Lkd.addReply (l : Lkd) (before : Nat) (r : Reply) : Lkd :=
  if l.ready.length = before then { l with ready := l.ready ++ [.reply r] }
  else
    let place := before + replyPlace l.choice (l.ready.length - before)
    { l with ready := l.ready.take place ++ .reply r :: l.ready.drop place, choice := l.choice + 1 }

/-- The reply kind of a request kind (R173). -/
def replyKind (kind : Byte) : Byte := kind + 0x80

/-- R172: a good request joins the tail of the request queue, or is answered BUSY. -/
def joinQueue (q : QueuedRequest) (tag kind : Byte) (s : State) : State :=
  if s.lkd.requests.length < 4 then s.setLkd { s.lkd with requests := s.lkd.requests ++ [q] }
  else s.setLkd (s.lkd.addReply s.lkd.ready.length ⟨tag, replyKind kind, .busy, []⟩)

/-- R173: the request `cmd` is at the head, with `rest` behind it, and its block handles it. -/
def carryOut (cmd : Instr) (tag kind : Byte) (handle : State → Answer) (rest : List QueuedRequest) (s : State) : State
    :=
  match handle (s.setLkd { s.lkd with requests := .command cmd :: rest }) with
  | .reply st fields t =>
    t.setLkd { t.lkd.addReply s.lkd.ready.length ⟨tag, replyKind kind, st, fields⟩ with requests := rest }
  | .withhold h t => t.setLkd { t.lkd with hold := h }

/-- A request given as a command (log 3). If the LKD takes requests and this one is at the head of the queue, or the
queue is empty, it is handled; otherwise it waits at the tail, or is answered BUSY (R172, R173). -/
def serve (cmd : Instr) (tag kind : Byte) (handle : State → Answer) (s : State) : State :=
  match s.lkd.hold with
  | .free =>
    match s.lkd.requests with
    | [] => carryOut cmd tag kind handle [] s
    | q :: rest =>
      if q = .command cmd then carryOut cmd tag kind handle rest s else joinQueue (.command cmd) tag kind s
  | _ => joinQueue (.command cmd) tag kind s

/-- The withheld reply of the head request is formed: it leaves the queue and the next becomes the head (R173). -/
def answerHead (tag kind : Byte) (st : Status) (fields : List Field) (s : State) : State :=
  s.setLkd { s.lkd.addReply s.lkd.ready.length ⟨tag, replyKind kind, st, fields⟩ with
    requests := s.lkd.requests.tail, hold := .free }

/-! ## DRAM, R34 and R36 -/

/-- What a byte of DRAM that is not listed reads as (log 8). -/
def unlisted : Byte := 0

/-- Read one byte. -/
def Memory.read (m : Memory) (a : Nat) : Byte := (Table.find a m).getD unlisted

/-- Write one byte, keeping the canonical form. -/
def Memory.write (m : Memory) (a : Nat) (b : Byte) : Memory :=
  if b = unlisted then Table.erase a m else Table.insert a b m

/-- The canonical form: addresses strictly rising, no entry equal to an unlisted byte. -/
def Memory.wf (m : Memory) : Bool := Table.wf m && m.all (fun c => decide (c.2 ≠ unlisted))

/-- The word at byte address `a`, high byte first (log 7). -/
def Memory.readWord (m : Memory) (a : Nat) : Word :=
  m.read a ++ m.read (a + 1) ++ m.read (a + 2) ++ m.read (a + 3)

/-- Write the word at byte address `a`, high byte first (log 7). -/
def Memory.writeWord (m : Memory) (a : Nat) (w : Word) : Memory :=
  (((m.write a (w.extractLsb' 24 8)).write (a + 1) (w.extractLsb' 16 8)).write (a + 2) (w.extractLsb' 8 8)).write
    (a + 3) (w.extractLsb' 0 8)

/-- Bytes of a page, and pages of a rank position (R33: 128 MiB at most). -/
def pageBytes : Nat := 4096
def rankPages : Nat := 32768

/-- The rank, from position `i` on, that holds page `p` of the page space: the page's number over all positions. -/
def physPageFrom (p : Nat) : Nat → List Rank → Option Nat
  | _, [] => none
  | i, r :: rest =>
    match r.base with
    | some b => if b ≤ p ∧ p < b + r.pages then some (i * rankPages + (p - b)) else physPageFrom p (i + 1) rest
    | none => physPageFrom p (i + 1) rest

/-- R34: where page `p` of the page space is held (log 9). -/
def Fsc.physPage (f : Fsc) (p : Nat) : Option Nat := physPageFrom p 0 f.ranks.toList

/-- R36: where pixel offset `q` of a buffer of a region lies (buffer 0 for a STILL region). -/
def Fsc.pixelAddr (f : Fsc) (r : Region) (buffer q : Nat) : Option Nat :=
  let byte := (r.base + buffer * r.blockPages) * pageBytes + 4 * q
  (f.physPage (byte / pageBytes)).map (fun p => p * pageBytes + byte % pageBytes)

/-- The word at a pixel offset. -/
def Fsc.readPixel (f : Fsc) (r : Region) (buffer q : Nat) : Word :=
  match f.pixelAddr r buffer q with
  | some a => Memory.readWord f.mem a
  | none => 0

/-- Write the word at a pixel offset. -/
def Fsc.writePixel (f : Fsc) (r : Region) (buffer q : Nat) (w : Word) : Fsc :=
  match f.pixelAddr r buffer q with
  | some a => { f with mem := Memory.writeWord f.mem a w }
  | none => f

/-- Every page of the region exists (R37 check 5); an access to one that does not is a fault (log 29). -/
def Fsc.inStore (f : Fsc) (r : Region) : Bool := (List.range r.pages).all (fun i => (f.physPage (r.base + i)).isSome)

/-- A pixel word with its two ignored bits 0 (R52). -/
def maskWord (w : Word) : Word := w &&& 0x3FFFFFFF

/-- The pixel word of a colour (00_scope.md, Pixels), R in the highest component (log 7). -/
def wordOf (c : Rgb) : Word := BitVec.ofNat 32 ((c.r % 1024) * 1048576 + (c.g % 1024) * 1024 + c.b % 1024)

/-- The components of a pixel word, R the highest (log 7); its top two bits are ignored (R96). -/
def rgbOf (w : Word) : Rgb := ⟨w.toNat / 1048576 % 1024, w.toNat / 1024 % 1024, w.toNat % 1024⟩

/-! ## Regions and their counts, R39 to R41 -/

/-- The record of a region, if it is defined. -/
def State.region (s : State) (id : Nat) : Option Region := s.fsc.regions.find id

/-- Change a region's record. -/
def modRegion (id : Nat) (f : Region → Region) (s : State) : State :=
  s.setFsc { s.fsc with regions := s.fsc.regions.modify id f }

/-- A layer or a frozen wall comes to name a source (R39). -/
def airUp (source : Option Nat) (s : State) : State :=
  match source with
  | some id => modRegion id (fun r => { r with air := r.air + 1 }) s
  | none => s

/-- A layer or a frozen wall ceases to name a source (R39). -/
def airDown (source : Option Nat) (s : State) : State :=
  match source with
  | some id => modRegion id (fun r => { r with air := r.air - 1 }) s
  | none => s

/-- R39: a layer's current source changes; from a region to the same region nothing changes. -/
def airMove (old new : Option Nat) (s : State) : State := if old = new then s else airUp new (airDown old s)

/-- A region named by an action, which its reference count counts (R110). -/
def Action.region : Action → Option Nat
  | .layerSource _ _ source _ _ _ => source
  | _ => none

/-- R40: an action or a wait entry comes to name its region. -/
def refUp (a : Action) (s : State) : State :=
  match a.region with
  | some id => modRegion id (fun r => { r with ref := r.ref + 1 }) s
  | none => s

/-- R40: an action or a wait entry ceases to name its region. -/
def refDown (a : Action) (s : State) : State :=
  match a.region with
  | some id => modRegion id (fun r => { r with ref := r.ref - 1 }) s
  | none => s

/-- R41: an entry for the region is accepted. -/
def postedUp (id : Nat) (s : State) : State := modRegion id (fun r => { r with posted := r.posted + 1 }) s

/-- R41: an entry for the region leaves. -/
def postedDown (id : Nat) (s : State) : State := modRegion id (fun r => { r with posted := r.posted - 1 }) s

/-- Whether the region is bound to the live input (R65). -/
def State.isBound (s : State) (id : Nat) : Bool := decide (s.lip.bound = some id)

/-- R38, R52 check 6, R56: the region is protected and on air. -/
def Region.guarded (r : Region) : Bool := r.protect && decide (0 < r.air)

/-- The frame counter of the frame in progress, as a field. -/
def State.counterField (s : State) : Field := .u4 s.rtu.counter.toNat

end Sys2Proof.Machine
end

