-- ==== Sys2Proof/Machine/Store.lean ====
section
/-! DEFINITION. The frame store, chapter 3: sizing and the page space, the region table, the show lock, the arbiter. -/

namespace Sys2Proof.Machine

/-! ## Sizing, R32 to R34 -/

/-- Pages of a rank by its size in MiB, for the three sizes there are (R34). -/
def pagesOfSize : Nat → Option Nat
  | 32 => some 8192
  | 64 => some 16384
  | 128 => some 32768
  | _ => none

/-- R33: the rank record that the end of sizing leaves. A size that is none of the three is a size fault. -/
def Rank.after (o : RankOutcome) : Rank :=
  match o with
  | .absent => { Rank.reset with state := .absent }
  | .sizeFault => { Rank.reset with state := .failed, cause := some .size }
  | .passed size =>
    if (pagesOfSize size).isSome then { Rank.reset with state := .present, size := some size }
    else { Rank.reset with state := .failed, cause := some .size }
  | .patternFault size page =>
    if (pagesOfSize size).isSome then
      { Rank.reset with state := .failed, size := some size, cause := some .pattern, firstBad := some page }
    else { Rank.reset with state := .failed, cause := some .size }

/-- R33: RANK_FAULT, for a FAILED rank. The size goes out as its number of MiB (log 34). -/
def rankFault (position : Nat) (r : Rank) (s : State) : State :=
  match r.cause with
  | none => s
  | some c =>
    raise .rankFault
      [.u2 position, (match c with
        | .size => .none2
        | .pattern => opt2 r.size), .u2 c.code, opt4 r.firstBad] s

/-- R34: give the PRESENT ranks their base pages, from `base` on. -/
def placeRanks (base : Nat) : List Rank → List Rank
  | [] => []
  | r :: rest =>
    match r.state, r.size.bind pagesOfSize with
    | .present, some n => { r with base := some base, pages := n } :: placeRanks (base + n) rest
    | _, _ => r :: placeRanks base rest

theorem placeRanks_length (base : Nat) (l : List Rank) : (placeRanks base l).length = l.length := by
  induction l generalizing base with
  | nil => rfl
  | cons r rest ih => unfold placeRanks; split <;> simp [ih]

/-- R34: form the page space. -/
def Fsc.formPages (f : Fsc) : Fsc :=
  let ranks : Vector Rank 4 := ⟨⟨placeRanks 0 f.ranks.toList⟩, by simp [placeRanks_length]⟩
  let total := (ranks.toList.map (·.pages)).sum
  { f with ranks := ranks, pageTotal := total, store := if 0 < total then .ready else .noMemory }

/-- The size found at a position: none for ABSENT or FAILED (R34). -/
def Rank.found (r : Rank) : Option Nat := if r.state = .present then r.size else none

/-- R34: STORE_READY. The page total goes out as a page number, and the four sizes with no count (log 23, 24), each as its
number of MiB (log 34). -/
def storeReady (s : State) : State :=
  raise .storeReady
    (.u2 s.fsc.store.code :: .u4 s.fsc.pageTotal :: s.fsc.ranks.toList.map (fun r => opt2 r.found)) s

/-- RANK_SIZED, R33, R34: the sizing of the position in turn ends. -/
def execRankSized (o : RankOutcome) (s : State) : Result :=
  if s.fsc.store = .sizing ∧ s.fsc.sizingAt < 4 then
    let i := s.fsc.sizingAt
    let r := Rank.after o
    let s1 := rankFault i r (s.setFsc { s.fsc with ranks := put s.fsc.ranks i r, sizingAt := i + 1 })
    if i + 1 = 4 then .next (storeReady (s1.setFsc s1.fsc.formPages)) else .next s1
  else .next s

/-! ## Regions, R36 to R38 -/

/-- R36: block pages. -/
def blockPagesOf (width height : Nat) : Nat := (width * height * 4 + 4095) / 4096

/-- R38: the protect-on-air setting that the field gives, if it is allowed. -/
def protectOf (kind : RegionKind) (field : Option Nat) : Option Bool :=
  match kind, field with
  | .still, none => some true
  | .live, none => some false
  | .still, some c => boolOfCode c
  | .live, some c => if c = 0 then some false else none

/-- R37 check 3: the record that the request asks for. -/
def regionOf (q : DefineRegionReq) : Option Region :=
  match RegionKind.ofCode q.kind with
  | none => none
  | some kind =>
    match protectOf kind q.protect with
    | none => none
    | some p =>
      if 63 < q.id ∨ q.width < 16 ∨ 4096 < q.width ∨ q.height < 16 ∨ 2160 < q.height then none
      else
        let block := blockPagesOf q.width q.height
        some ⟨kind, q.base, q.width, q.height, p, block, (match kind with
          | .still => block
          | .live => 3 * block), 0, 0, 0⟩

/-- R37 check 6: two regions share a page. -/
def Region.meets (r x : Region) : Bool := decide (r.base < x.base + x.pages) && decide (x.base < r.base + r.pages)

/-- A region record as a reply carries it (R36). -/
def Region.fields (id : Nat) (r : Region) : List Field :=
  [.u1 id, .u1 r.kind.code, .u4 r.base, .u2 r.width, .u2 r.height, .u1 (boolCode r.protect), .u2 r.blockPages,
    .u2 r.pages, .u4 r.air, .u4 r.ref, .u1 r.posted]

/-- R37. -/
def defineRegion (q : DefineRegionReq) (s : State) : Answer :=
  match firstFailing [(decide (s.fsc.store ≠ .ready), .notReady), (s.fsc.showLock, .locked)], regionOf q with
  | some st, _ => refuse st s
  | none, none => refuse .range s
  | none, some r =>
    checked
      [(s.fsc.regions.has q.id, .exists_), (decide (s.fsc.pageTotal < r.base + r.pages), .range),
        (s.fsc.regions.any (fun e => r.meets e.2), .inUse)] s
      (.reply .ok (r.fields q.id) (s.setFsc { s.fsc with regions := s.fsc.regions.insert q.id r }))

/-- DEFINE_REGION, R37. -/
def execDefineRegion (tag : Byte) (q : DefineRegionReq) (s : State) : Result :=
  .next (serve (.defineRegion tag q) tag 0x20 (defineRegion q) s)

/-! ## Deleting, R42 -/

/-- R42: removal frees the table entry and the pages. -/
def removeRegion (id : Nat) (s : State) : State := s.setFsc { s.fsc with regions := s.fsc.regions.erase id }

/-- The fields of the OK reply of a deletion (R42). -/
def Region.freedFields (id : Nat) (r : Region) : List Field := [.u1 id, .u4 r.base, .u2 r.pages]

/-- R42. -/
def deleteRegion (id : Nat) (s : State) : Answer :=
  match firstFailing
      [(decide (s.fsc.store ≠ .ready), .notReady), (s.fsc.showLock, .locked), (decide (63 < id), .range)],
    s.region id with
  | some st, _ => refuse st s
  | none, none => refuse .noSuch s
  | none, some r =>
    if 0 < r.air ∨ 0 < r.ref ∨ s.isBound id then refuse .inUse s
    else if r.posted = 0 then .reply .ok (r.freedFields id) (removeRegion id s)
    else .withhold .drain s

/-- DELETE_REGION, R42. -/
def execDeleteRegion (tag : Byte) (id : Nat) (s : State) : Result :=
  .next (serve (.deleteRegion tag id) tag 0x21 (deleteRegion id) s)

/-- REGION_REMOVAL, R42: the last entry of the region whose deletion waits has left. -/
def execRegionRemoval (s : State) : Result :=
  match s.lkd.hold, s.lkd.requests with
  | .drain, .command (.deleteRegion tag id) :: _ =>
    match s.region id with
    | some r =>
      if r.posted = 0 then .next (answerHead tag 0x21 .ok (r.freedFields id) (removeRegion id s)) else .next s
    | none => .next s
  | _, _ => .next s

/-! ## Reading, R44, R45 -/

/-- R44. The refusals are checked in the order in which the rule names them (log 38). -/
def readRegion (id : Nat) (s : State) : Answer :=
  match firstFailing [(decide (s.fsc.store ≠ .ready), .notReady), (decide (63 < id), .range)], s.region id with
  | some st, _ => refuse st s
  | none, none => refuse .noSuch s
  | none, some r => .reply .ok (r.fields id ++ [.u1 (boolCode (s.isBound id)), s.counterField]) s

/-- READ_REGION, R44. -/
def execReadRegion (tag : Byte) (id : Nat) (s : State) : Result :=
  .next (serve (.readRegion tag id) tag 0x22 (readRegion id) s)

/-- Insert a run of pages by its first page. -/
def insertRun (r : Nat × Nat) : List (Nat × Nat) → List (Nat × Nat)
  | [] => [r]
  | x :: rest => if r.1 < x.1 then r :: x :: rest else x :: insertRun r rest

/-- The maximal runs of pages from `page` to `total` that none of the held runs, taken in page order, covers (R45). -/
def freeRuns (page total : Nat) : List (Nat × Nat) → List (Nat × Nat)
  | [] => if page < total then [(page, total - page)] else []
  | (b, n) :: rest =>
    if page < b then (page, b - page) :: freeRuns (b + n) total rest else freeRuns (b + n) total rest

/-- R45: the free runs; none while the store state is not READY. -/
def Fsc.freeRuns (f : Fsc) : List (Nat × Nat) :=
  if f.store = .ready then
    Machine.freeRuns 0 f.pageTotal (f.regions.foldl (fun l e => insertRun (e.2.base, e.2.pages) l) [])
  else []

/-- A rank record as READ MEMORY carries it (R45). Its size goes out as its number of MiB (log 34). -/
def Rank.fields (r : Rank) : List Field :=
  [.u1 r.state.code, opt1 r.size, opt4 r.base, .u2 r.pages, opt1 (r.cause.map RankCause.code), opt2 r.firstBad]

/-- R45. The number of defined regions is the count of the list of their ids as well, and goes out once (the model's
choice: log 23). -/
def readMemory (s : State) : Answer :=
  let f := s.fsc
  .reply .ok
    (.u1 f.store.code :: f.ranks.toList.flatMap Rank.fields ++ .u4 f.pageTotal ::
      .u1 f.regions.length :: f.regions.ids.map Field.u1 ++
      .u4 (f.regions.map (fun e => e.2.pages)).sum ::
      .u1 f.freeRuns.length :: f.freeRuns.flatMap (fun r => [.u4 r.1, .u4 r.2]) ++
      [.u1 (boolCode f.showLock), s.counterField]) s

/-- READ_MEMORY, R45. -/
def execReadMemory (tag : Byte) (s : State) : Result := .next (serve (.readMemory tag) tag 0x23 readMemory s)

/-! ## Show lock, R46 -/

/-- R46. -/
def setShowLock (s : State) : Answer := .reply .ok [.u1 1] (s.setFsc { s.fsc with showLock := true })

/-- SET_SHOW_LOCK, R46. -/
def execSetShowLock (tag : Byte) (s : State) : Result := .next (serve (.setShowLock tag) tag 0x24 setShowLock s)

/-! ## The arbiter, R48 -/

/-- The four requesters, in the order in which they are granted. -/
inductive Requester
  | scan
  | live
  | posting
  | read
deriving DecidableEq, Repr

/-- R48: the waiting requester that comes first. Posting retirement waits while the buffer holds an entry (R55), a
content read once it has proceeded (R62); the two upper requesters wait as the grant says (log 10). -/
def arbitrate (asks : Asks) (s : State) : Option Requester :=
  if asks.scan.isSome then some .scan
  else if 0 < asks.live then some .live
  else if !s.fsc.posting.isEmpty then some .posting
  else if s.lkd.hold = .readGrant then some .read
  else none

end Sys2Proof.Machine
end

