-- ==== Sys2Proof/Machine/Content.lean ====
section
/-! DEFINITION. Content transfer, chapter 4: the posting buffer, its retirement in bursts, and content reads. -/

namespace Sys2Proof.Machine

/-! ## Acceptance, R51 to R54 -/

/-- R52, the checks of a write. -/
def writeFailing (q : WriteContentReq) (s : State) : Option Status :=
  match firstFailing
      [(decide (s.fsc.store ≠ .ready), .notReady), (decide (63 < q.region) || q.pixels.isEmpty, .range)],
    s.region q.region with
  | some st, _ => some st
  | none, none => some .noSuch
  | none, some r =>
    firstFailing
      [(s.isBound q.region, .inUse), (decide (r.width * r.height < q.offset + q.pixels.length), .range),
        (r.guarded, .onAir)]

/-- R54, the checks of a fill. -/
def fillFailing (q : FillRegionReq) (s : State) : Option Status :=
  match firstFailing
      [(decide (s.fsc.store ≠ .ready), .notReady),
        (decide (63 < q.region) || !rgbInRange q.colour || decide (q.rect.width = 0) || decide (q.rect.height = 0),
          .range)],
    s.region q.region with
  | some st, _ => some st
  | none, none => some .noSuch
  | none, some r =>
    firstFailing
      [(s.isBound q.region, .inUse),
        (decide (r.width < q.rect.x + q.rect.width) || decide (r.height < q.rect.y + q.rect.height), .range),
        (r.guarded, .onAir)]

/-- The entry that a write makes; the two top bits of each word are taken as 0 (R52). -/
def writeEntry (q : WriteContentReq) : PostEntry := ⟨q.region, .write q.offset (q.pixels.map maskWord), 0⟩

/-- The entry that a fill makes. -/
def fillEntry (q : FillRegionReq) : PostEntry := ⟨q.region, .fill q.rect q.colour, 0⟩

/-- R51: the pixel total of an entry. -/
def PostEntry.total (e : PostEntry) : Nat :=
  match e.kind with
  | .write _ pixels => pixels.length
  | .fill rect _ => rect.width * rect.height

/-- R53: the entry joins the tail. -/
def acceptEntry (e : PostEntry) (s : State) : State :=
  let s1 := postedUp e.region s
  s1.setFsc { s1.fsc with posting := s1.fsc.posting ++ [e] }

/-- The fields of the OK reply of an accepted write or fill (R53). -/
def acceptFields (e : PostEntry) (s : State) : List Field := [.u1 e.region, .u4 e.total, .u1 (s.fsc.posting.length + 1)]

/-- R53: a request that passes is accepted where the buffer has a place, and waits otherwise. -/
def placeEntry (failing : Option Status) (e : PostEntry) (s : State) : Answer :=
  match failing with
  | some st => refuse st s
  | none =>
    if s.fsc.posting.length < 8 then .reply .ok (acceptFields e s) (acceptEntry e s) else .withhold .place s

/-- WRITE_CONTENT, R52, R53. -/
def execWriteContent (tag : Byte) (q : WriteContentReq) (s : State) : Result :=
  .next (serve (.writeContent tag q) tag 0x25 (fun t => placeEntry (writeFailing q t) (writeEntry q) t) s)

/-- FILL_REGION, R53, R54. -/
def execFillRegion (tag : Byte) (q : FillRegionReq) (s : State) : Result :=
  .next (serve (.fillRegion tag q) tag 0x26 (fun t => placeEntry (fillFailing q t) (fillEntry q) t) s)

/-- R53: every check is made again when a place is free. -/
def retryEntry (tag kind : Byte) (failing : Option Status) (e : PostEntry) (s : State) : State :=
  match failing with
  | some st => answerHead tag kind st [] s
  | none => answerHead tag kind .ok (acceptFields e s) (acceptEntry e s)

/-- WAITING_REQUEST_ACCEPT, R53. -/
def execWaitingRequestAccept (s : State) : Result :=
  if s.lkd.hold = .place ∧ s.fsc.posting.length < 8 then
    match s.lkd.requests with
    | .command (.writeContent tag q) :: _ => .next (retryEntry tag 0x25 (writeFailing q s) (writeEntry q) s)
    | .command (.fillRegion tag q) :: _ => .next (retryEntry tag 0x26 (fillFailing q s) (fillEntry q) s)
    | _ => .next s
  else .next s

/-! ## Retirement, R55 to R60 -/

/-- R60: the region offset of pixel `p` of a rectangle in raster order, in a region `width` pixels wide. -/
def rectOffset (rect : Rect) (width p : Nat) : Nat :=
  (rect.y + p / rect.width) * width + (rect.x + p % rect.width)

/-- R55: the next burst of an entry: the pixel offsets and the words it writes. -/
def PostEntry.burst (e : PostEntry) (r : Region) : List (Nat × Word) :=
  match e.kind with
  | .write offset pixels => mapFrom (fun i w => (offset + i, w)) 0 pixels
  | .fill rect colour =>
    (List.range (min 256 (rect.width * rect.height - e.done))).map
      (fun i => (rectOffset rect r.width (e.done + i), wordOf colour))

/-- Write pixels of buffer 0 (R55, R59). -/
def Fsc.writePixels (f : Fsc) (r : Region) (pixels : List (Nat × Word)) : Fsc :=
  pixels.foldl (fun g p => g.writePixel r 0 p.1 p.2) f

/-- R56: why a burst for the region fails, if it does. -/
def burstFails (id : Nat) (r : Region) (s : State) : Option DiscardCause :=
  if r.guarded then some .onAir else if s.isBound id then some .bound else none

/-- R55: the head entry leaves the buffer. -/
def headLeaves (id : Nat) (s : State) : State :=
  postedDown id (s.setFsc { s.fsc with posting := s.fsc.posting.tail })

/-- R60: the first pixel of an entry that is not written. -/
def PostEntry.firstUnwritten (e : PostEntry) (r : Region) : Nat :=
  match e.kind with
  | .write offset _ => offset
  | .fill rect _ => rectOffset rect r.width e.done

/-- R60: the discard record of an entry at its failing burst. -/
def discardOf (e : PostEntry) (r : Region) (cause : DiscardCause) (counter : BitVec 32) : Discard where
  region := e.region
  isFill := match e.kind with
    | .write .. => false
    | .fill .. => true
  cause := cause
  offset := e.firstUnwritten r
  dropped := e.total - e.done
  counter := counter

/-- R57, R58, R60: the head entry is discarded. -/
def discardHead (e : PostEntry) (r : Region) (cause : DiscardCause) (s : State) : State :=
  let d := discardOf e r cause s.rtu.counter
  headLeaves e.region
    (raise .writeDiscarded
      [.u2 d.region, .u2 (boolCode d.isFill), .u2 cause.code, .u2 d.offset, .u2 d.dropped]
      (s.setFsc { s.fsc with discards := satAdd 65535 s.fsc.discards 1, lastDiscard := some d }))

/-- R55: a passing burst is written; the entry leaves when every pixel is done. -/
def writeBurst (e : PostEntry) (rest : List PostEntry) (r : Region) (s : State) : State :=
  let burst := e.burst r
  let s1 := s.setFsc (s.fsc.writePixels r burst)
  if e.total ≤ e.done + burst.length then headLeaves e.region s1
  else s1.setFsc { s1.fsc with posting := { e with done := e.done + burst.length } :: rest }

/-- BURST_GRANT, R48, R55 to R60. -/
def execBurstGrant (asks : Asks) (s : State) : Result :=
  if arbitrate asks s = some .posting then
    match s.fsc.posting with
    | [] => .next s
    | e :: rest =>
      match s.region e.region with
      | none => .next (headLeaves e.region s)
      | some r =>
        match burstFails e.region r s with
        | some cause => .next (discardHead e r cause s)
        | none => if s.fsc.inStore r then .next (writeBurst e rest r s) else .fault .outsideStore
  else .next s

/-- R50, R64: a full reset that falls within a burst's access leaves the first `cut` of its pixels written (log 14). -/
def abandonBurst (cut : Nat) (s : State) : Fsc :=
  match s.fsc.posting with
  | [] => s.fsc
  | e :: _ =>
    match s.region e.region with
    | none => s.fsc
    | some r =>
      match burstFails e.region r s with
      | some _ => s.fsc
      | none => s.fsc.writePixels r ((e.burst r).take cut)

/-! ## Reading content, R61, R62 -/

/-- R61. -/
def readContent (q : ReadContentReq) (s : State) : Answer :=
  match firstFailing
      [(decide (s.fsc.store ≠ .ready), .notReady), (decide (63 < q.region) || decide (q.count = 0), .range)],
    s.region q.region with
  | some st, _ => refuse st s
  | none, none => refuse .noSuch s
  | none, some r =>
    if r.width * r.height < q.offset + q.count then refuse .range s
    else if r.posted = 0 then .withhold .readGrant s
    else .withhold .readDrain s

/-- READ_CONTENT, R61. -/
def execReadContent (tag : Byte) (q : ReadContentReq) (s : State) : Result :=
  .next (serve (.readContent tag q) tag 0x27 (readContent q) s)

/-- READ_PROCEEDS, R61: the region of the withheld read has no entries outstanding. -/
def execReadProceeds (s : State) : Result :=
  match s.lkd.hold, s.lkd.requests with
  | .readDrain, .command (.readContent _ q) :: _ =>
    match s.region q.region with
    | some r => if r.posted = 0 then .next (s.setLkd { s.lkd with hold := .readGrant }) else .next s
    | none => .next s
  | _, _ => .next s

/-- R62: the buffer read, for a LIVE region. -/
def readBuffer (id : Nat) (r : Region) (s : State) : Option Nat :=
  match r.kind with
  | .still => none
  | .live => if s.isBound id then some (s.lip.newest.getD 0) else some 0

/-- R62: the pixels in DRAM at the grant, their top two bits 0. -/
def readPixels (q : ReadContentReq) (r : Region) (buffer : Nat) (s : State) : List Word :=
  (List.range q.count).map (fun i => maskWord (s.fsc.readPixel r buffer (q.offset + i)))

/-- CONTENT_READ_GRANT, R48, R62. -/
def execContentReadGrant (asks : Asks) (s : State) : Result :=
  if arbitrate asks s = some .read then
    match s.lkd.requests with
    | .command (.readContent tag q) :: _ =>
      match s.region q.region with
      | none => .next s
      | some r =>
        if s.fsc.inStore r then
          let b := readBuffer q.region r s
          let words := readPixels q r (b.getD 0) s
          .next (answerHead tag 0x27 .ok
            ([.u1 q.region, .u4 q.offset, opt1 b, s.counterField, .u1 words.length] ++ words.map Field.word) s)
        else .fault .outsideStore
    | _ => .next s
  else .next s

/-! ## READ POSTING, R63 -/

def PostEntry.fields (e : PostEntry) : List Field :=
  (match e.kind with
   | .write offset _ => [.u1 0, .u1 e.region, .u4 offset]
   | .fill r _ => [.u1 1, .u1 e.region, .u2 r.x, .u2 r.y, .u2 r.width, .u2 r.height]) ++ [.u4 e.total, .u4 e.done]

/-- R63: the last discard record, or that none exists. A byte, 1 or 0, goes before it and says which (the model's choice:
log 34). -/
def Discard.fields : Option Discard → List Field
  | none => [.u1 0]
  | some d =>
    [.u1 1, .u1 d.region, .u1 (boolCode d.isFill), .u1 d.cause.code, .u4 d.offset, .u4 d.dropped, .u4 d.counter.toNat]

/-- R63. The number of entries, a field that R63 names, serves as the count of their list and goes out once (the model's
choice: log 23). -/
def readPosting (s : State) : Answer :=
  .reply .ok
    (.u1 s.fsc.posting.length :: s.fsc.posting.flatMap PostEntry.fields ++ .u2 s.fsc.discards ::
      Discard.fields s.fsc.lastDiscard ++ [s.counterField]) s

/-- READ_POSTING, R63. -/
def execReadPosting (tag : Byte) (s : State) : Result := .next (serve (.readPosting tag) tag 0x28 readPosting s)

end Sys2Proof.Machine
end

