-- ==== Sys2Proof/Machine/Bits.lean ====
section
/-! DEFINITION. Bits and bytes: the two CRC-16 checks (R150, R171), the stuffing of the fixture bus (R150), and
numbers as bits or bytes, most significant first. -/

namespace Sys2Proof.Machine

/-- The low `n` bits of `x`, most significant first. -/
def bitsOf : Nat → Nat → List Bool
  | 0, _ => []
  | n + 1, x => x.testBit n :: bitsOf n x

/-- The number that bits spell, most significant first. -/
def natOfBits (bits : List Bool) : Nat := bits.foldl (fun acc b => 2 * acc + (if b then 1 else 0)) 0

/-- The bits of a byte, most significant first. -/
def byteBits (b : Byte) : List Bool := bitsOf 8 b.toNat

/-- One step of a CRC-16 with its register shifted left, no reflection. -/
def crcStep (poly : Crc) (c : Crc) (bit : Bool) : Crc :=
  if c.msb != bit then (c <<< 1) ^^^ poly else c <<< 1

/-- A CRC-16 over bits in the order in which they are sent. -/
def crcBits (poly init : Crc) (bits : List Bool) : Crc := bits.foldl (crcStep poly) init

/-- The check of a bus frame: x^16 + x^15 + x^2 + 1, initial value 0 (R150). -/
def busCheck (bits : List Bool) : Crc := crcBits 0x8005 0 bits

/-- The check of a Control Link frame: x^16 + x^12 + x^5 + 1, initial value 0xFFFF, each byte most significant bit
first (R171). -/
def linkCheck (bytes : List Byte) : Crc := crcBits 0x1021 0xFFFF (bytes.flatMap byteBits)

/-! ## Stuffing, R150 -/

/-- Insert a bit of the other value after every run of six equal bits; the inserted bit counts as the first of the
next run. `last` and `run` are the last bit on the line and the length of the run it ends. -/
def stuff : Bool → Nat → List Bool → List Bool
  | _, _, [] => []
  | last, run, b :: bs =>
    let run' := if b = last then run + 1 else 1
    if run' = 6 then b :: (!b) :: stuff (!b) 1 bs else b :: stuff b run' bs

/-- What is left after reading bits off the line: the bits read, the run state, the rest of the line. -/
structure Destuffed where
  bits : List Bool
  last : Bool
  run : Nat
  rest : List Bool
deriving DecidableEq, Repr

/-- Read `n` bits off the line, removing the inserted ones; none at a run of seven equal bits (a run error, R153), or
where the line ends. -/
def destuff : Nat → Bool → Nat → List Bool → Option Destuffed
  | 0, last, run, line => some ⟨[], last, run, line⟩
  | _ + 1, _, _, [] => none
  | n + 1, last, run, b :: line =>
    let run' := if b = last then run + 1 else 1
    if run' = 6 then
      match line with
      | [] => none
      | c :: line' =>
        if c = b then none
        else (destuff n c 1 line').map (fun d => { d with bits := b :: d.bits })
    else (destuff n b run' line).map (fun d => { d with bits := b :: d.bits })

/-! ## Bytes, high byte first -/

def byte (n : Nat) : Byte := BitVec.ofNat 8 n
def bytes2 (n : Nat) : List Byte := [byte (n / 256), byte n]
def bytes3 (n : Nat) : List Byte := [byte (n / 65536), byte (n / 256), byte n]
def bytes4 (n : Nat) : List Byte := [byte (n / 16777216), byte (n / 65536), byte (n / 256), byte n]

/-- The number that bytes spell, high byte first. -/
def natOfBytes (bytes : List Byte) : Nat := bytes.foldl (fun acc b => 256 * acc + b.toNat) 0

/-- The value of a signed 2-byte field. -/
def signed16 (n : Nat) : Int := if n < 32768 then n else (n : Int) - 65536

/-- A signed value as the number of its 2-byte field. -/
def unsigned16 (z : Int) : Nat := (z % 65536).toNat

end Sys2Proof.Machine
end

