-- ==== Sys2Proof/Machine/BusFrame.lean ====
section
/-! DEFINITION. The bus frame on the line (R150, R151 and chapter 12, Fixture bus frame). A bit is `true` when
recessive. -/

namespace Sys2Proof.Machine

/-- The bits of a bus frame from its start bit to the last payload bit, before any stuffing. -/
def busHead (identifier : Nat) (payload : List Byte) : List Bool :=
  false :: (bitsOf 10 identifier ++ bitsOf 6 payload.length ++ payload.flatMap byteBits)

/-- The same with the check, which is formed over the identifier, length and payload bits. -/
def busBits (identifier : Nat) (payload : List Byte) : List Bool :=
  busHead identifier payload ++ bitsOf 16 (busCheck (busHead identifier payload).tail).toNat

/-- The whole bus frame as its sender sends it: stuffed up to the check, then the acknowledgement slot and the end. -/
def busFrame (identifier : Nat) (payload : List Byte) : List Bool :=
  stuff false 0 (busBits identifier payload) ++ List.replicate 8 true

/-- The bytes that a list of bits spells, eight by eight. -/
def bytesOfBits : Nat → List Bool → List Byte
  | 0, _ => []
  | n + 1, bits => byte (natOfBits (bits.take 8)) :: bytesOfBits n (bits.drop 8)

/-- Read a bus frame off the line: identifier and payload. None at a run error, a check error or a form error (R153),
or where the line ends early. The acknowledgement slot may read either way. -/
def readBusFrame (line : List Bool) : Option (Nat × List Byte) :=
  match destuff 17 false 0 line with
  | none => none
  | some head =>
    let length := natOfBits (head.bits.drop 11)
    if head.bits.head? = some true ∨ 32 < length then none
    else
      match destuff (8 * length + 16) head.last head.run head.rest with
      | none => none
      | some body =>
        let sum := busCheck (head.bits.tail ++ body.bits.take (8 * length))
        if bitsOf 16 sum.toNat = body.bits.drop (8 * length) ∧ body.rest.tail = List.replicate 7 true then
          some (natOfBits ((head.bits.drop 1).take 10), bytesOfBits length (body.bits.take (8 * length)))
        else none

/-- The payload of a level frame: 2 bytes per channel, high byte first, in channel order (R150). -/
def levelPayload (levels : List Nat) : List Byte := levels.flatMap bytes2

end Sys2Proof.Machine
end

