-- ==== Sys2Proof/Machine/Bus.lean ====
section
/-! DEFINITION. The Fixture Bus Controller, chapter 10: ports and their states, dirty marks and the transmit queue,
errors, filters, the fixture logic, and its events and requests. -/

namespace Sys2Proof.Machine

/-! ## Ports -/

/-- The state of a port of the bus. -/
def Fbc.port (f : Fbc) : Port → BusPort
  | .a => f.portA
  | .b => f.portB

def Fbc.setPort (f : Fbc) (p : Port) (x : BusPort) : Fbc :=
  match p with
  | .a => { f with portA := x }
  | .b => { f with portB := x }

def State.port (s : State) (p : Port) : BusPort := s.fbc.port p

def setPort (p : Port) (x : BusPort) (s : State) : State := s.setFbc (s.fbc.setPort p x)

/-- JOINING, NORMAL and PASSIVE: the states in which the queue is filled (R161). -/
def PortState.queues : PortState → Bool
  | .joining | .normal | .passive => true
  | .off | .detached => false

/-- NORMAL and PASSIVE: the states in which the port sends, acknowledges and counts errors. -/
def PortState.onLine : PortState → Bool
  | .normal | .passive => true
  | .off | .joining | .detached => false

/-- R149: enter a port state, with PORT_STATE where it is a change. -/
def enterPort (p : Port) (new : PortState) (cause : PortCause) (s : State) : State :=
  let old := s.port p
  let s' := setPort p { old with state := new } s
  if old.state = new then s'
  else raise .portState
    [.u2 (portCode p), .u2 old.state.code, .u2 new.code, .u2 cause.code, .u2 old.txe, .u2 old.rxe] s'

/-- R154: the port state that the counts give. -/
def stateOfCounts (txe rxe : Nat) : PortState :=
  if 191 < txe then .detached else if 96 ≤ txe ∨ 96 ≤ rxe then .passive else .normal

/-! ## Dirty set and transmit queue, R161 -/

/-- Put an id into a set kept in increasing order. -/
def insertId (k : Nat) : List Nat → List Nat
  | [] => [k]
  | j :: rest => if k < j then k :: j :: rest else if k = j then j :: rest else j :: insertId k rest

/-- The fixture has an entry in the queue; an orphan does not make its id queued (R160). -/
def BusPort.isQueued (b : BusPort) (id : Nat) : Bool := b.queue.any (fun e => decide (e.fixture = id) && !e.orphan)

def BusPort.isDirty (b : BusPort) (id : Nat) : Bool := b.dirty.contains id

/-- R161: how the port handles a mark of one of its fixtures. -/
def BusPort.mark (b : BusPort) (id : Nat) : BusPort :=
  if b.isQueued id || b.isDirty id then b
  else if b.state.queues && decide (b.queue.length < 32) then
    { b with queue := b.queue ++ [⟨id, none, false⟩] }
  else { b with dirty := insertId id b.dirty }

/-- R161: the first dirty fixture from the id after last admitted, wrapping from 191 to 0. -/
def nextDirty (dirty : List Nat) (last : Nat) : Option Nat :=
  match dirty.find? (fun id => decide (last < id)) with
  | some id => some id
  | none => dirty.head?

/-- Admit up to `n` dirty fixtures. -/
def BusPort.admitDirty : Nat → BusPort → BusPort
  | 0, b => b
  | n + 1, b =>
    if b.queue.length < 32 then
      match nextDirty b.dirty b.lastAdmitted with
      | none => b
      | some id =>
        BusPort.admitDirty n
          { b with queue := b.queue ++ [⟨id, none, false⟩], dirty := b.dirty.erase id, lastAdmitted := id }
    else b

/-- R161: fill the queue from the dirty set. -/
def BusPort.fill (b : BusPort) : BusPort := if b.state.queues then BusPort.admitDirty 32 b else b

/-- R147, R154: every entry leaves the queue into the dirty set; an orphan is dropped. -/
def BusPort.unqueue (b : BusPort) : BusPort :=
  { b with queue := [], dirty := (b.queue.filter (fun e => !e.orphan)).foldl (fun d e => insertId e.fixture d) b.dirty }

/-- Mark a fixture dirty (R161). -/
def markDirty (id : Nat) (s : State) : State :=
  match s.fbc.fixtures.find id with
  | none => s
  | some f => setPort f.port ((s.port f.port).mark id) s

/-- R143: mark every fixture whose run of channels includes channel `c`, by id (log 18). -/
def markChannel (c : Nat) (s : State) : State :=
  s.fbc.fixtures.foldl (fun t e => if e.2.first ≤ c ∧ c < e.2.first + e.2.count then markDirty e.1 t else t) s

/-- The front SENDING entry, if the port is sending. -/
def BusPort.sending (b : BusPort) : Option QueueEntry := b.queue.find? (fun e => e.snapshot.isSome)

/-- The SENDING entry leaves the queue. -/
def BusPort.dropSending (b : BusPort) : BusPort := { b with queue := b.queue.filter (fun e => e.snapshot.isNone) }

/-- The SENDING entry returns to WAITING in its place; an orphan leaves without a retry, and the queue is filled
(R160, R162). -/
def BusPort.endAttempt (b : BusPort) : BusPort :=
  match b.sending with
  | none => b
  | some e =>
    if e.orphan then b.dropSending.fill
    else { b with queue := b.queue.map (fun x => { x with snapshot := none }) }

/-- R154: after a change of either count the state is set from the counts; entering DETACHED empties the queue into
the dirty set and releases the line. -/
def settlePort (p : Port) (s : State) : State :=
  let b := s.port p
  let new := stateOfCounts b.txe b.rxe
  if new = .detached then
    enterPort p .detached .errors (setPort p { b.unqueue with quiet := 0, drive := .released } s)
  else enterPort p new .errors s

/-! ## Fixtures -/

def modFixture (id : Nat) (f : Fixture → Fixture) (s : State) : State :=
  s.setFbc { s.fbc with fixtures := s.fbc.fixtures.modify id f }

/-- R159: enter a fixture state, with FIXTURE_STATE where it is a change. -/
def enterFixture (id : Nat) (new : FixtureState) (s : State) : State :=
  match s.fbc.fixtures.find id with
  | none => s
  | some f =>
    let s' := modFixture id (fun x => { x with state := new }) s
    if f.state = new then s'
    else raise .fixtureState
      [.u2 id, .u2 (portCode f.port), .u2 f.address, .u2 f.state.code, .u2 new.code,
        (match f.temperature with
         | none => .noneI2
         | some t => .i2 t)] s'

/-- The fixture of a port with an address. -/
def fixtureAt (p : Port) (address : Nat) : Table Fixture → Option Nat
  | [] => none
  | (id, f) :: rest => if f.port = p ∧ f.address = address then some id else fixtureAt p address rest

/-- The present outputs of a run of channels. -/
def State.outputs (s : State) (first count : Nat) : List Nat :=
  (List.range count).map (fun i => (at_ s.lvp.channels (first + i) Channel.reset).output)

/-- R157, R153: a temperature as recorded. -/
def recordTemperature (b : Byte) : Int := max (-40) (min 125 b.toInt)

/-- R157: a status frame for a fixture of the table. -/
def fixtureStatus (p : Port) (id : Nat) (payload : List Byte) (s : State) : State :=
  match payload with
  | [c, t] =>
    match conditionOfCode c.toNat with
    | some st =>
      enterFixture id st
        (modFixture id (fun f => { f with temperature := some (recordTemperature t), silence := 0 }) s)
    | none => setPort p { s.port p with ignored := satAdd 65535 (s.port p).ignored 1 } s
  | _ => setPort p { s.port p with ignored := satAdd 65535 (s.port p).ignored 1 } s

/-- R157: a level frame from another node for a fixture the part drives. -/
def fixtureClash (p : Port) (id address : Nat) (s : State) : State :=
  match s.fbc.fixtures.find id with
  | none => s
  | some f =>
    let s' := modFixture id (fun x => { x with clash := true }) s
    if f.clash then s' else raise .addressClash [.u2 id, .u2 (portCode p), .u2 address] s'

/-- R157: the fixture logic on an accepted frame. -/
def fixtureLogic (p : Port) (identifier : Nat) (payload : List Byte) (s : State) : State :=
  if 512 ≤ identifier then
    match fixtureAt p (identifier - 512) s.fbc.fixtures with
    | some id => fixtureStatus p id payload s
    | none =>
      if (s.port p).unknown.contains (identifier - 512) then s
      else raise .unknownSource [.u2 (portCode p), .u2 (identifier - 512)]
        (setPort p { s.port p with unknown := insertId (identifier - 512) (s.port p).unknown } s)
  else
    match fixtureAt p identifier s.fbc.fixtures with
    | some id => fixtureClash p id identifier s
    | none => s

/-- R156: an identifier matches an enabled filter. -/
def Filter.matches_ (f : Filter) (identifier : Nat) : Bool :=
  f.enabled && decide (identifier &&& f.mask = f.value &&& f.mask)

/-! ## Events on the line -/

/-- PORT_JOINED, R148: a quiet period ends JOINING. -/
def execPortJoined (p : Port) (s : State) : Result :=
  if (s.port p).state = .joining then
    .next (enterPort p .normal .joined (setPort p { s.port p with txe := 0, rxe := 0 } s))
  else .next s

/-- QUIET_PERIOD, R155: 12 recessive bits on the line of a DETACHED port. -/
def execQuietPeriod (p : Port) (s : State) : Result :=
  if (s.port p).state = .detached then .next (setPort p { s.port p with quiet := satAdd 64 (s.port p).quiet 1 } s)
  else .next s

/-- R155: every fixture defined on the port is put into the dirty set. -/
def dirtyAll (p : Port) (fixtures : Table Fixture) (b : BusPort) : BusPort :=
  { b with dirty := fixtures.foldl (fun d e => if e.2.port = p then insertId e.1 d else d) b.dirty }

/-- PORT_RECOVERED, R155: the quiet count has reached 64. -/
def execPortRecovered (p : Port) (s : State) : Result :=
  if (s.port p).state = .detached ∧ 64 ≤ (s.port p).quiet then
    let s1 := enterPort p .normal .recovered (setPort p { s.port p with txe := 0, rxe := 0 } s)
    .next (setPort p (dirtyAll p s1.fbc.fixtures (s1.port p)).fill s1)
  else .next s

/-- R151: free to start, when the line has carried `idleBits` recessive bits since the last bus frame or delimiter
(log 28). -/
def BusPort.freeToStart (b : BusPort) (idleBits : Nat) : Bool :=
  b.state.onLine && b.sending.isNone && !b.queue.isEmpty && decide (4 ≤ idleBits) &&
    !(decide (b.state = .passive) && b.lastOwn && decide (idleBits < 14))

/-- R162: the front entry becomes SENDING with its snapshot. -/
def BusPort.begin (b : BusPort) (snapshot : List Nat) (address : Nat) : BusPort :=
  { b with
    queue := match b.queue with
      | [] => []
      | e :: rest => { e with snapshot := some snapshot } :: rest
    drive := .sending (busFrame address (levelPayload snapshot)) }

/-- SEND_START, R151, R162. -/
def execSendStart (p : Port) (idleBits : Nat) (s : State) : Result :=
  let b := s.port p
  if b.freeToStart idleBits then
    match b.queue.head? with
    | none => .next s
    | some e =>
      match s.fbc.fixtures.find e.fixture with
      | none => .next s
      | some f => .next (setPort p (b.begin (s.outputs f.first f.count) f.address) s)
  else .next s

/-- LOST_ARBITRATION, R151, R162: no count changes and the winning frame is received. -/
def execLostArbitration (p : Port) (s : State) : Result :=
  let b := s.port p
  match b.sending with
  | none => .next s
  | some _ => .next (setPort p { b.endAttempt with drive := .released, lastOwn := false } s)

/-- R162: after a success, mark the fixture again if its outputs differ from what was sent. -/
def compareSent (id : Nat) (snapshot : List Nat) (s : State) : State :=
  match s.fbc.fixtures.find id with
  | none => s
  | some f => if s.outputs f.first f.count = snapshot then s else markDirty id s

/-- SEND_SUCCESS, R152, R162. -/
def execSendSuccess (p : Port) (s : State) : Result :=
  let b := s.port p
  match b.sending with
  | none => .next s
  | some e =>
    let s1 := settlePort p (setPort p { b with txe := b.txe - 1, drive := .released, lastOwn := true } s)
    let s2 := setPort p (s1.port p).dropSending.fill s1
    match e.orphan, e.snapshot with
    | false, some snapshot =>
      .next (compareSent e.fixture snapshot
        (modFixture e.fixture (fun f => { f with sent := some snapshot, countdown := f.keepAlive }) s2))
    | _, _ => .next s2

/-- R153: the port is sending an error mark or waiting for the delimiter after it, 9 recessive bits in a row, of which
the line has carried `recessive` since the mark (log 28). -/
def LineDrive.marking (d : LineDrive) (recessive : Nat) : Bool :=
  match d with
  | .mark _ _ => decide (recessive < 9)
  | _ => false

/-- VALID_RECEPTION, R152, R156, R157: the bits of another node's bus frame as the line carried them. The port has
driven its acknowledgement slot dominant, whatever the filters say. A frame that passes before the delimiter of the
port's error mark is complete is not received (R153), but is the last bus frame on the line (R151). Bits that do not read as a bus frame are no valid
reception; the error they show is BUS_ERROR's. -/
def execValidReception (p : Port) (r : BusReception) (s : State) : Result :=
  let b := s.port p
  if b.state.onLine && b.sending.isNone then
    match readBusFrame r.bits with
    | none => .next s
    | some (identifier, payload) =>
      if b.drive.marking r.recessive then .next (setPort p { b with lastOwn := false } s)
      else
        let s1 := settlePort p (setPort p { b with rxe := b.rxe - 1, drive := .ack, lastOwn := false } s)
        .next (if b.filters.toList.any (fun f => f.matches_ identifier) then fixtureLogic p identifier payload s1 else s1)
  else .next s

/-- R153: whether a kind of error can arise while sending, or while receiving. -/
def possibleError (k : BusErrorKind) (sending : Bool) : Bool :=
  match k with
  | .bit | .missingAck => sending
  | .check => !sending
  | .run | .form => true

/-- R153: the error mark by the state that the counts have set. -/
def errorMark (endBit : Nat) : PortState → LineDrive
  | .normal => .mark true endBit
  | .passive => .mark false endBit
  | _ => .released

/-- R152, R153: a receiving port that finds a form error at a bit of the end field has acknowledged the frame before;
which bit that was. -/
def acknowledgedBit (e : BusFault) (sending : Bool) : Nat :=
  if e.kind = .form ∧ sending = false then e.endBit else 0

/-- The bits that a port puts on its line for what it drives, in order; the line is its own no longer once they are
passed (R150, R152, R153). -/
def LineDrive.bits : LineDrive → List Bool
  | .released => []
  | .sending bits => bits
  | .ack => [false]
  | .mark dominant endBit =>
    (if endBit = 0 then [] else false :: List.replicate endBit true) ++ List.replicate 7 (!dominant)

/-- BUS_ERROR, R153, R154, R162. What follows an error mark, up to its delimiter, is not counted again; a frame that
began there is another node's, and the last on the line (R151). -/
def execBusError (p : Port) (e : BusFault) (s : State) : Result :=
  let b := s.port p
  let sending := b.sending.isSome
  if b.state.onLine && possibleError e.kind sending then
    if b.drive.marking e.recessive then
      .next (if e.later then setPort p { b with lastOwn := false } s else s)
    else
      let b1 :=
        if sending then { b with txe := b.txe + 8, lastOwn := true }
        else { b with rxe := satAdd 255 b.rxe 1, lastOwn := false }
      let s1 := settlePort p (setPort p b1 s)
      let b2 := s1.port p
      .next (setPort p { b2.endAttempt with drive := errorMark (acknowledgedBit e sending) b2.state } s1)
  else .next s

/-! ## Per-frame work, R159 -/

/-- R159: the keep-alive countdown of a fixture. -/
def keepAliveTick (id : Nat) (s : State) : State :=
  match s.fbc.fixtures.find id with
  | none => s
  | some f =>
    if f.countdown ≤ 1 then markDirty id (modFixture id (fun x => { x with countdown := x.keepAlive }) s)
    else modFixture id (fun x => { x with countdown := x.countdown - 1 }) s

/-- R159: the silence count of a fixture. -/
def silenceTick (id : Nat) (s : State) : State :=
  match s.fbc.fixtures.find id with
  | none => s
  | some f =>
    if 0 < f.silenceLimit ∧ f.state ≠ .silent then
      let s' := modFixture id (fun x => { x with silence := x.silence + 1 }) s
      if f.silenceLimit ≤ f.silence + 1 then enterFixture id .silent s' else s'
    else s

/-- R159: every defined fixture at a frame boundary, by id (log 18). -/
def fbcAtBoundary (s : State) : State := s.fbc.fixtures.ids.foldl (fun t id => silenceTick id (keepAliveTick id t)) s

/-! ## Requests -/

/-- The enabled field, rate and state of a port as a reply carries them. -/
def BusPort.headFields (b : BusPort) : List Field :=
  [.u1 (boolCode b.enabled), .u1 (rateCode b.rate), .u1 b.state.code]

/-- R147: carry out SET BUS. -/
def changeBus (p : Port) (enable : Bool) (rate : Option Nat) (s : State) : State :=
  let b := s.port p
  match enable, b.enabled with
  | true, false =>
    let s1 := enterPort p .joining .enabled
      (setPort p { b with enabled := true, rate := rate.getD b.rate, txe := 0, rxe := 0 } s)
    setPort p (s1.port p).fill s1
  | true, true => s
  | false, true =>
    enterPort p .off .disabled
      (setPort p { b.unqueue with
        enabled := false, rate := rate.getD b.rate, txe := 0, rxe := 0, quiet := 0, drive := .released } s)
  | false, false => setPort p { b with rate := rate.getD b.rate } s

/-- R147. -/
def setBus (q : SetBusReq) (s : State) : Answer :=
  match s.fsc.showLock, portOfCode q.port, boolOfCode q.enable, keepOr none (fun c => (rateOfCode c).map some) q.rate
    with
  | true, _, _, _ => refuse .locked s
  | false, some p, some e, some rate =>
    let b := s.port p
    if b.enabled && e && (match rate with
        | none => false
        | some r => decide (r ≠ b.rate)) then refuse .wrongState s
    else
      let t := changeBus p e rate s
      .reply .ok (t.port p).headFields t
  | false, _, _, _ => refuse .range s

/-- SET_BUS, R147. -/
def execSetBus (tag : Byte) (q : SetBusReq) (s : State) : Result := .next (serve (.setBus tag q) tag 0x60 (setBus q) s)

def Filter.fields (f : Filter) : List Field := [.u2 f.value, .u2 f.mask, .u1 (boolCode f.enabled)]

/-- R156. The refusals are checked in the order in which the rule names them (log 38). -/
def setFilter (q : SetFilterReq) (s : State) : Answer :=
  match s.fsc.showLock, portOfCode q.port, boolOfCode q.enabled with
  | true, _, _ => refuse .locked s
  | false, some p, some e =>
    if 7 < q.filter ∨ 1023 < q.value ∨ 1023 < q.mask then refuse .range s
    else
      let f : Filter := ⟨q.value, q.mask, e⟩
      .reply .ok f.fields (setPort p { s.port p with filters := put (s.port p).filters q.filter f } s)
  | false, _, _ => refuse .range s

/-- SET_FILTER, R156. -/
def execSetFilter (tag : Byte) (q : SetFilterReq) (s : State) : Result :=
  .next (serve (.setFilter tag q) tag 0x61 (setFilter q) s)

/-- A fixture record as a reply carries it, with the fixture id before it (R158; log 34). -/
def Fixture.fields (id : Nat) (f : Fixture) : List Field :=
  [.u1 id, .u1 (portCode f.port), .u2 f.address, .u2 f.first, .u1 f.count, .u1 f.keepAlive, .u2 f.silenceLimit,
    .u1 f.state.code,
    (match f.temperature with
     | none => .noneI2
     | some t => .i2 t)] ++
  (match f.sent with
   | none => [.none1]
   | some levels => .u1 levels.length :: levels.map Field.u2) ++
  [.u1 f.countdown, .u2 f.silence, .u1 (boolCode f.clash)]

/-- R160: free a fixture id. A WAITING entry leaves the queue, which is filled; a SENDING one becomes an orphan. -/
def removeFixture (id : Nat) (s : State) : State :=
  match s.fbc.fixtures.find id with
  | none => s
  | some f =>
    let s1 := s.setFbc { s.fbc with fixtures := s.fbc.fixtures.erase id }
    let b := s1.port f.port
    let queue := (b.queue.filter (fun e => !(decide (e.fixture = id) && !e.orphan && e.snapshot.isNone))).map
      (fun e => if e.fixture = id then { e with orphan := true } else e)
    setPort f.port ({ b with dirty := b.dirty.erase id, queue := queue } : BusPort).fill s1

/-- R158: the new record of a fixture. -/
def fixtureRecord (q : DefineFixtureReq) (p : Port) : Fixture where
  port := p
  address := q.address
  first := q.first
  count := q.count
  keepAlive := q.keepAlive.getD 50
  silenceLimit := q.silence.getD 150
  state := .unseen
  temperature := none
  sent := none
  countdown := q.keepAlive.getD 50
  silence := 0
  clash := false

/-- R158 check 2, but for the port code. -/
def fixtureOutOfRange (q : DefineFixtureReq) : Bool :=
  decide (191 < q.id) || decide (511 < q.address) || decide (767 < q.first) || decide (q.count < 1) ||
    decide (16 < q.count) || decide (768 < q.first + q.count) || decide (q.keepAlive.getD 50 < 1) ||
    decide (255 < q.keepAlive.getD 50) || decide (65535 < q.silence.getD 150)

/-- R158: another fixture id holds the same address on the same port. -/
def addressTaken (id : Nat) (p : Port) (address : Nat) (fixtures : Table Fixture) : Bool :=
  fixtures.any (fun e => decide (e.1 ≠ id) && decide (e.2.port = p) && decide (e.2.address = address))

/-- R158. -/
def defineFixture (q : DefineFixtureReq) (s : State) : Answer :=
  match s.fsc.showLock, portOfCode q.port with
  | true, _ => refuse .locked s
  | false, none => refuse .range s
  | false, some p =>
    checked [(fixtureOutOfRange q, .range), (addressTaken q.id p q.address s.fbc.fixtures, .exists_)] s
      (let s1 := removeFixture q.id s
       let s2 := s1.setFbc { s1.fbc with fixtures := s1.fbc.fixtures.insert q.id (fixtureRecord q p) }
       .reply .ok ((fixtureRecord q p).fields q.id) (markDirty q.id s2))

/-- DEFINE_FIXTURE, R158. -/
def execDefineFixture (tag : Byte) (q : DefineFixtureReq) (s : State) : Result :=
  .next (serve (.defineFixture tag q) tag 0x62 (defineFixture q) s)

/-- R160. The refusals are checked in the order in which the rule names them (log 38). -/
def deleteFixture (id : Nat) (s : State) : Answer :=
  match firstFailing [(s.fsc.showLock, .locked), (decide (191 < id), .range)], s.fbc.fixtures.find id with
  | some st, _ => refuse st s
  | none, none => refuse .noSuch s
  | none, some f => .reply .ok [.u1 id, .u1 (portCode f.port), .u2 f.address] (removeFixture id s)

/-- DELETE_FIXTURE, R160. -/
def execDeleteFixture (tag : Byte) (id : Nat) (s : State) : Result :=
  .next (serve (.deleteFixture tag id) tag 0x63 (deleteFixture id) s)

/-- WAITING is coded 0 and SENDING 1 (R161). -/
def QueueEntry.stateCode (e : QueueEntry) : Nat := if e.snapshot.isSome then 1 else 0

/-- R163, READ BUS. The queue depth and the number of dirty fixtures, fields that R163 names, serve as the counts of the
two lists that follow them and go out once (the model's choice: log 23). -/
def readBus (port : Nat) (s : State) : Answer :=
  match portOfCode port with
  | none => refuse .range s
  | some p =>
    let b := s.port p
    .reply .ok
      (b.headFields ++ [.u1 b.txe, .u1 b.rxe, .u1 b.quiet] ++ b.filters.toList.flatMap Filter.fields ++
        .u1 b.queue.length ::
          b.queue.flatMap (fun e => [.u1 e.fixture, .u1 e.stateCode, .u1 (boolCode e.orphan)]) ++
        .u1 b.dirty.length :: b.dirty.map Field.u1 ++
        [.u1 b.lastAdmitted, .u2 b.ignored, .u2 b.unknown.length, s.counterField]) s

/-- READ_BUS, R163. -/
def execReadBus (tag : Byte) (port : Nat) (s : State) : Result := .next (serve (.readBus tag port) tag 0x64 (readBus
    port) s)

/-- R163, READ FIXTURE. A search flag other than 1 is none (the model's choice: log 43). The refusals are checked in the
order in which the rule names them (log 38). 'Queued (WAITING or SENDING) or dirty' goes out as two fields (the model's
choice: log 34): a byte 0 WAITING, 1 SENDING or NONE, then a yes or no for dirty. -/
def readFixture (id : Nat) (search : Option Nat) (s : State) : Answer :=
  let found :=
    if search = some 1 then s.fbc.fixtures.firstFrom id
    else (s.fbc.fixtures.find id).map (fun f => (id, f))
  match decide (search ≠ some 1) && decide (191 < id), found with
  | true, _ => refuse .range s
  | false, none => refuse .noSuch s
  | false, some (i, f) =>
    let b := s.port f.port
    let outputs := s.outputs f.first f.count
    .reply .ok
      (f.fields i ++ .u1 outputs.length :: outputs.map Field.u2 ++
        [(match b.queue.find? (fun e => decide (e.fixture = i) && !e.orphan) with
          | some e => .u1 e.stateCode
          | none => .none1),
         .u1 (boolCode (b.isDirty i)), s.counterField]) s

/-- READ_FIXTURE, R163. -/
def execReadFixture (tag : Byte) (id : Nat) (search : Option Nat) (s : State) : Result :=
  .next (serve (.readFixture tag id search) tag 0x65 (readFixture id search) s)

end Sys2Proof.Machine
end

