-- ==== Sys2Proof/Machine/Level.lean ====
section
/-! DEFINITION. The Level Processor, chapter 9: channel outputs, the fade table and its arithmetic, manual fades,
tracking, and its requests; with the outstanding counts of chapter 8 that its fades raise and lower. -/

namespace Sys2Proof.Machine

/-! ## Outstanding counts and completion, R123, R125 -/

/-- Change the outstanding count of the active record of a cue. -/
def modCount (n : Nat) (f : Nat → Nat) (s : State) : State :=
  s.setCue { s.cue with
    active := s.cue.active.map (fun a => if a.cue = n then { a with outstanding := f a.outstanding } else a) }

/-- A fade placed or a wait entry made for an owner raises its count (R123). -/
def raiseCount : Owner → State → State
  | .cue n, s => modCount n (· + 1) s
  | .manual, s => s

/-- A fade ended, taken over or removed, or a wait entry gone, lowers its owner's count (R123). -/
def lowerCount : Owner → State → State
  | .cue n, s => modCount n (· - 1) s
  | .manual, s => s

/-- R125: the follow timer starts if the standby is a cue whose trigger is FOLLOW. -/
def CueEngine.startFollow (c : CueEngine) : CueEngine :=
  match c.standby.bind c.cues.find with
  | some ⟨.follow d, _⟩ => { c with follow := some ⟨d, d⟩ }
  | _ => c

/-- R123: an active record whose count is 0 completes. -/
def completeCue (a : Active) (s : State) : State :=
  let s1 := s.setCue { s.cue with active := s.cue.active.filter (fun x => decide (x.cue ≠ a.cue)) }
  let s2 := raise .cueComplete [.u2 a.cue, .u2 CompleteCause.done.code, .u4 a.fireFrame.toNat] s1
  if s.cue.recent = some a.cue then s2.setCue s2.cue.startFollow else s2

/-- Judge completions: every active record with count 0 but that of the cue now firing (R120, R123). Several complete in
firing order (the model's choice: log 18). -/
def judge (firing : Option Nat) (s : State) : State :=
  (s.cue.active.filter (fun a => decide (a.outstanding = 0) && decide (some a.cue ≠ firing))).foldl
    (fun t a => completeCue a t) s

/-! ## Channels, R141, R143 -/

def State.channel (s : State) (c : Nat) : Channel := at_ s.lvp.channels c Channel.reset

/-- The level of a target (R131). -/
def State.level (s : State) (target : Nat) : Nat := at_ s.lvp.targets target 0

/-- The number of the lighting master, and of the targets of a wall (R131). -/
def masterTarget : Nat := 788
def opacityTarget (wall layer : Nat) : Nat := 768 + wall * 4 + layer - 1
def brightnessTarget (wall : Nat) : Nat := 784 + wall

/-- The wall that a target belongs to, if any (R131). -/
def wallOfTarget (t : Nat) : Option Nat :=
  if 768 ≤ t ∧ t ≤ 783 then some ((t - 768) / 4) else if 784 ≤ t ∧ t ≤ 787 then some (t - 784) else none

/-- R141: the mix, with the channel's fade level. -/
def Channel.mixOf (ch : Channel) (fadeLevel : Nat) : Nat :=
  match ch.mode with
  | .fade => fadeLevel
  | .track => ch.tracked
  | .sum => min 65535 (fadeLevel + ch.tracked)

/-- R141: the mix clips. -/
def Channel.clips (ch : Channel) (fadeLevel : Nat) : Bool :=
  decide (ch.mode = .sum) && decide (65535 < fadeLevel + ch.tracked)

/-- R143: mix and output recomputed. -/
def Channel.compute (ch : Channel) (fadeLevel master : Nat) : Channel :=
  { ch with
    mix := ch.mixOf fadeLevel
    output := ch.mixOf fadeLevel * master / 65535
    sat := ch.sat || ch.clips fadeLevel }

def putChannel (c : Nat) (ch : Channel) (s : State) : State :=
  s.setLvp { s.lvp with channels := put s.lvp.channels c ch }

/-- R143: recompute channel `c`; a changed output marks dirty every fixture fed from it. -/
def recompute (c : Nat) (s : State) : State :=
  let ch := (s.channel c).compute (s.level c) (s.level masterTarget)
  if ch.output = (s.channel c).output then putChannel c ch s else markChannel c (putChannel c ch s)

/-- R143: a change of the master recomputes all 768 channels, by number (log 18). -/
def recomputeAll (s : State) : State := (List.range 768).foldl (fun t c => recompute c t) s

/-- Write a target's level, with its effect on outputs (R143). -/
def setLevel (target v : Nat) (s : State) : State :=
  if s.level target = v then s
  else
    let s' := s.setLvp { s.lvp with targets := put s.lvp.targets target v }
    if target < 768 then recompute target s' else if target = masterTarget then recomputeAll s' else s'

/-! ## Fades, R132 to R135 -/

/-- R135: w, the share of the way by the curve, at elapsed n of D. -/
def curveShare (curve : Vector Nat 17) (n d : Nat) : Nat :=
  let q := 65536 * n / d
  let k := q / 4096
  let f := q % 4096
  at_ curve k 65535 + (at_ curve (k + 1) 65535 - at_ curve k 65535) * f / 4096

/-- R135: the level a share of the way from S to T, rounded toward S. -/
def between (s t w : Nat) : Nat := if s ≤ t then s + (t - s) * w / 65535 else s - (s - t) * w / 65535

/-- R135: the level of a running fade. -/
def fadeLevel (curve : Vector Nat 17) (f : Fade) (n : Nat) : Nat := between f.start f.stop (curveShare curve n
    f.duration)

def State.curve (s : State) (c : Nat) : Vector Nat 17 := at_ s.lvp.curves c Curve.linear

/-- Free the slot of a target's fade, reporting to the CUE (R133, R140). -/
def removeFade (target : Nat) (s : State) : State :=
  match s.lvp.fades.find target with
  | none => s
  | some f => lowerCount f.owner (s.setLvp { s.lvp with fades := s.lvp.fades.erase target })

/-- R134: the fade of a target reaches its duration and ends. -/
def endFade (target : Nat) (f : Fade) (s : State) : State := removeFade target (setLevel target f.stop s)

/-- R134: advance the fade of a target by `a` frames. -/
def advanceFade (a target : Nat) (s : State) : State :=
  match s.lvp.fades.find target with
  | none => s
  | some f =>
    if f.duration ≤ f.elapsed + a then endFade target f s
    else
      setLevel target (fadeLevel (s.curve f.curve) f (f.elapsed + a))
        (s.setLvp { s.lvp with fades := s.lvp.fades.insert target { f with elapsed := f.elapsed + a } })

/-- R134: advance every running fade, by target number (log 18). -/
def advanceFades (a : Nat) (s : State) : State := s.lvp.fades.ids.foldl (fun t target => advanceFade a target t) s

/-- R133: start a fade: takeover, then cut, placement or overflow. -/
def startFade (target stop duration curve : Nat) (owner : Owner) (s : State) : State :=
  let s1 := removeFade target s
  if duration = 0 then setLevel target stop s1
  else if s1.lvp.fades.length < 256 then
    raiseCount owner
      (s1.setLvp { s1.lvp with
        fades := s1.lvp.fades.insert target ⟨s1.level target, stop, duration, 0, curve, owner⟩ })
  else
    let s2 := setLevel target stop s1
    s2.setLvp { s2.lvp with fadeOverflow := true }

/-- R139: start every pending manual fade in order. -/
def startManual (s : State) : State :=
  s.lvp.manual.foldl (fun t m => judge none (startFade m.target m.level m.duration m.curve .manual t))
    (s.setLvp { s.lvp with manual := [] })

/-! ## Tracking, R142 -/

def Averages.component (a : Averages) : Component → Nat
  | .r => a.r
  | .g => a.g
  | .b => a.b
  | .y => a.y

/-- R142: the tracked level after a measurement. -/
def Channel.track (ch : Channel) (avg : Averages) : Nat :=
  let target := min 65535 (avg.component ch.component * 64 * ch.gain / 256)
  if ch.tracked ≤ target then ch.tracked + (target - ch.tracked) * ch.smoothing / 256
  else ch.tracked - (ch.tracked - target) * ch.smoothing / 256

/-- R142: one channel at the zone-complete event of zone `z`. -/
def trackChannel (z : Nat) (avg : Averages) (c : Nat) (s : State) : State :=
  let ch := s.channel c
  if ch.mode ≠ .fade ∧ ch.zone = z ∧ ch.track avg ≠ ch.tracked then
    recompute c (putChannel c { ch with tracked := ch.track avg } s)
  else s

/-- R142: every channel that tracks the zone, by number (log 18). -/
def trackZone (z : Nat) (avg : Averages) (s : State) : State :=
  (List.range 768).foldl (fun t c => trackChannel z avg c t) s

/-! ## Requests -/

/-- The 17 points of a curve with the interior points given, if they are nondecreasing (R137). -/
def curveOf (points : List Nat) : Option (Vector Nat 17) :=
  let all := 0 :: points ++ [65535]
  if h : all.length = 17 then
    if (all.zip all.tail).all (fun p => decide (p.1 ≤ p.2)) then some ⟨⟨all⟩, h⟩ else none
  else none

/-- R137. -/
def setCurve (curve : Nat) (points : List Nat) (s : State) : Answer :=
  match firstFailing [(s.fsc.showLock, .locked), (decide (3 < curve), .range), (decide (curve = 0), .wrongState)],
    curveOf points with
  | some st, _ => refuse st s
  | none, none => refuse .range s
  | none, some v => .reply .ok (v.toList.map Field.u2) (s.setLvp { s.lvp with curves := put s.lvp.curves curve v })

/-- SET_CURVE, R137. -/
def execSetCurve (tag : Byte) (curve : Nat) (points : List Nat) (s : State) : Result :=
  .next (serve (.setCurve tag curve points) tag 0x50 (setCurve curve points) s)

/-- R138: a manual fade for a target replaces the one pending, in its place, or joins the end. -/
def placeManual (m : ManualFade) : List ManualFade → List ManualFade
  | [] => [m]
  | x :: rest => if x.target = m.target then m :: rest else x :: placeManual m rest

/-- R138. -/
def fade (q : FadeReq) (s : State) : Answer :=
  let replaced := s.lvp.manual.any (fun m => decide (m.target = q.target))
  let d := min 8191 q.duration
  checked
    [(decide (788 < q.target) || decide (65535 < q.level) || decide (3 < q.curve), .range),
      ((match wallOfTarget q.target with
        | some w => !s.wse.walls.has w
        | none => false), .noSuch),
      (!replaced && decide (32 ≤ s.lvp.manual.length), .full)] s
    (.reply .ok [.u2 q.target, .u2 q.level, .u2 d, .u1 (boolCode replaced)]
      (s.setLvp { s.lvp with manual := placeManual ⟨q.target, q.level, d, q.curve⟩ s.lvp.manual }))

/-- FADE, R138. -/
def execFade (tag : Byte) (q : FadeReq) (s : State) : Result := .next (serve (.fade tag q) tag 0x51 (fade q) s)

/-- R144: one channel takes the settings, and its tracked level starts again at 0. -/
def configureChannel (mode : ChannelMode) (component : Component) (q : SetChannelReq) (c : Nat) (s : State) : State :=
  recompute c
    (putChannel c
      { s.channel c with
        mode := mode, zone := q.zone, component := component, gain := q.gain, smoothing := q.smoothing, tracked := 0 }
          s)

/-- R144 check 2, but for the mode and component codes. -/
def channelOutOfRange (q : SetChannelReq) : Bool :=
  decide (767 < q.first) || decide (q.count < 1) || decide (64 < q.count) || decide (768 < q.first + q.count) ||
    decide (7 < q.zone) || decide (1023 < q.gain) || decide (q.smoothing < 1) || decide (256 < q.smoothing)

/-- R144. The channels of the run are configured by number (the model's choice: log 18). -/
def setChannel (q : SetChannelReq) (s : State) : Answer :=
  match firstFailing [(s.fsc.showLock, .locked), (channelOutOfRange q, .range)], ChannelMode.ofCode q.mode,
    Component.ofCode q.component with
  | some st, _, _ => refuse st s
  | none, some m, some c =>
    .reply .ok
      [.u2 q.first, .u1 q.count, .u1 q.mode, .u1 q.zone, .u1 q.component, .u2 q.gain, .u2 q.smoothing]
      ((List.range q.count).foldl (fun t i => configureChannel m c q (q.first + i) t) s)
  | none, _, _ => refuse .range s

/-- SET_CHANNEL, R144. -/
def execSetChannel (tag : Byte) (q : SetChannelReq) (s : State) : Result :=
  .next (serve (.setChannel tag q) tag 0x52 (setChannel q) s)

/-- MANUAL is coded 0, which is no cue number (log 23). -/
def Owner.code : Owner → Nat
  | .cue n => n
  | .manual => 0

/-- A running fade as a reply carries it: whether there is one, and its fields. -/
def fadeFields : Option Fade → List Field
  | none => [.u1 0]
  | some f =>
    [.u1 1, .u2 f.start, .u2 f.stop, .u2 f.duration, .u2 f.elapsed, .u1 f.curve, .u2 f.owner.code]

def channelFields (s : State) (c : Nat) : List Field :=
  let ch := s.channel c
  [.u1 ch.mode.code, .u1 ch.zone, .u1 ch.component.code, .u2 ch.gain, .u2 ch.smoothing, .u2 (s.level c),
    .u2 ch.tracked, .u2 ch.mix, .u2 ch.output, .u1 (boolCode ch.sat)] ++ fadeFields (s.lvp.fades.find c)

/-- What every view of READ LEVELS carries besides its own (R145). -/
def levelTail (s : State) : List Field :=
  [.u2 s.lvp.fades.length, .u1 s.lvp.manual.length, .u1 (boolCode s.lvp.fadeOverflow), s.counterField]

/-- R145. The channels are a list and go out with their count; the 21 targets and the four curves are groups of fixed
size and have none (log 23). -/
def readLevels (q : ReadLevelsReq) (s : State) : Answer :=
  match q.view with
  | 0 =>
    if 767 < q.first ∨ q.count < 1 ∨ 64 < q.count ∨ 768 < q.first + q.count then refuse .range s
    else .reply .ok
      (.u1 q.count :: (List.range q.count).flatMap (fun i => channelFields s (q.first + i)) ++ levelTail s) s
  | 1 =>
    .reply .ok
      ((List.range 21).flatMap (fun i => .u2 (s.level (768 + i)) :: fadeFields (s.lvp.fades.find (768 + i))) ++
        levelTail s) s
  | 2 => .reply .ok (s.lvp.curves.toList.flatMap (fun v => v.toList.map Field.u2) ++ levelTail s) s
  | _ => refuse .range s

/-- READ_LEVELS, R145. -/
def execReadLevels (tag : Byte) (q : ReadLevelsReq) (s : State) : Result :=
  .next (serve (.readLevels tag q) tag 0x53 (readLevels q) s)

end Sys2Proof.Machine
end

