-- ==== Sys2Proof/Machine/Cue.lean ====
section
/-! DEFINITION. The Cue Engine, chapter 8: actions, firing, the wait list, completion and supersession, the work at a
frame boundary, and its requests. -/

namespace Sys2Proof.Machine

/-! ## Walls as actions change them -/

/-- The record of a wall, if it is defined. -/
def State.wall (s : State) (w : Nat) : Option Wall := s.wse.walls.find w

def modWall (w : Nat) (f : Wall → Wall) (s : State) : State :=
  s.setWse { s.wse with walls := s.wse.walls.modify w f }

/-- A layer with source NONE, as DEFINE WALL makes it (R76). -/
def Layer.none_ : Layer := ⟨none, ⟨0, 0, 16, 16⟩, 0, 0⟩

/-- Layer 1..4 of a wall. -/
def Wall.layer (x : Wall) (layer : Nat) : Layer := at_ x.layers (layer - 1) Layer.none_

/-- R39, R80, R121: a layer's current parameters change, and the air counts with its source. -/
def changeLayer (w layer : Nat) (l : Layer) (s : State) : State :=
  match s.wall w with
  | none => s
  | some x =>
    modWall w (fun y => { y with layers := put y.layers (layer - 1) l }) (airMove (x.layer layer).source l.source s)

/-! ## Actions, R110, R121, R122 -/

/-- The wall that an action names (R110). -/
def Action.wall : Action → Option Nat
  | .layerSource w _ _ _ _ _ => some w
  | .layerFade w _ _ _ _ => some w
  | .wallFade w _ _ _ => some w
  | .levelFade .. => none
  | .masterFade .. => none
  | .wallMode w _ _ => some w

/-- The owner of the fades that an action starts (R122). -/
def ownerOf : Option Nat → Owner
  | some n => .cue n
  | none => .manual

/-- R121: the effect of an action whose wall, if it names one, is defined. -/
def Action.effect (owner : Owner) : Action → State → State
  | .layerSource w l source rect px py, s => changeLayer w l ⟨source, rect, px, py⟩ s
  | .layerFade w l level d c, s => startFade (opacityTarget w l) level d c owner s
  | .wallFade w level d c, s => startFade (brightnessTarget w) level d c owner s
  | .levelFade first count level d c, s =>
    (List.range count).foldl (fun t i => startFade (first + i) level d c owner t) s
  | .masterFade level d c, s => startFade masterTarget level d c owner s
  | .wallMode w m p, s => modWall w (fun x => { x with pending := some (m, p) }) s

/-- R121: the action is skipped when it names a wall that is not defined. -/
def Action.skipped (a : Action) (s : State) : Option Nat :=
  match a.wall with
  | some w => if s.wse.walls.has w then none else some w
  | none => none

/-- R121: execute an action for an owner, from its position in the cue, at firing or from the wait list. -/
def runAction (owner : Option Nat) (position : Nat) (fromWait : Bool) (a : Action) (s : State) : State :=
  match a.skipped s with
  | some w =>
    raise .actionSkipped [opt2 owner, .u2 position, .u2 a.code, .u2 w, .u2 (boolCode fromWait)] s
  | none => a.effect (ownerOf owner) s

/-! ## Firing, R120, R124 -/

/-- R109: the next cue after a number. -/
def nextCue (n : Nat) (cues : Table Cue) : Option Nat := (cues.firstFrom (n + 1)).map (·.1)

/-- R109: the actions held by all stored cues. -/
def poolUsed (cues : Table Cue) : Nat := (cues.map (fun e => e.2.actions.length)).sum

/-- R124: the active record of cue `n` is superseded. -/
def supersede (a : Active) (s : State) : State :=
  let s1 := s.setCue { s.cue with
    active := s.cue.active.filter (fun x => decide (x.cue ≠ a.cue))
    waits := s.cue.waits.map (fun e => if e.owner = some a.cue then { e with owner := none } else e) }
  let s2 := s1.setLvp { s1.lvp with
    fades := s1.lvp.fades.mapAll (fun f => if f.owner = .cue a.cue then { f with owner := .manual } else f) }
  raise .cueComplete [.u2 a.cue, .u2 CompleteCause.superseded.code, .u4 a.fireFrame.toNat] s2

/-- R124: make room for the record of cue `n`. -/
def makeRoom (n : Nat) (s : State) : State :=
  match s.cue.active.find? (fun a => decide (a.cue = n)) with
  | some a => supersede a s
  | none =>
    if 16 ≤ s.cue.active.length then
      match s.cue.active.head? with
      | some a => supersede a s
      | none => s
    else s

/-- What a firing has done so far (R120): the state, the actions executed at once, those of them executed because the
wait list was full, and the wait entries made. -/
structure Firing where
  state : State
  atOnce : Nat
  overflow : Nat
  entries : Nat

/-- R120 step 3: a new wait entry. -/
def addWait (n position delay : Nat) (a : Action) (s : State) : State :=
  let s1 := refUp a (modCount n (· + 1) s)
  s1.setCue { s1.cue with waits := s1.cue.waits ++ [⟨a, position, some n, delay⟩] }

/-- R120 step 3: one stored action of the firing cue. -/
def fireAction (n position : Nat) (ta : TimedAction) (f : Firing) : Firing :=
  if ta.delay = 0 then
    { f with state := judge (some n) (runAction (some n) position false ta.action f.state), atOnce := f.atOnce + 1 }
  else if f.state.cue.waits.length < 128 then
    { f with state := addWait n position ta.delay ta.action f.state, entries := f.entries + 1 }
  else
    let s1 := judge (some n) (runAction (some n) position false ta.action f.state)
    { f with
      state := s1.setCue { s1.cue with waitOverflow := true }, atOnce := f.atOnce + 1, overflow := f.overflow + 1 }

/-- R120 step 3: the stored actions in their order, from position `i`. -/
def fireActions (n : Nat) : Nat → List TimedAction → Firing → Firing
  | _, [], f => f
  | i, ta :: rest, f => fireActions n (i + 1) rest (fireAction n i ta f)

/-- The outstanding count of a cue's record. -/
def State.outstanding (s : State) (n : Nat) : Nat :=
  match s.cue.active.find? (fun a => decide (a.cue = n)) with
  | some a => a.outstanding
  | none => 0

/-- The camera of a TALLY firing. -/
def FireSource.camera : FireSource → Option Nat
  | .tally c => some c
  | _ => none

/-- R120: cue `n` fires; CUE_FIRED carries the counts as they stand after the last action (log 22). -/
def fireCue (n : Nat) (source : FireSource) (s : State) : State :=
  match s.cue.cues.find n with
  | none => s
  | some c =>
    let s1 := makeRoom n (s.setCue { s.cue with follow := none, recent := some n, standby := nextCue n s.cue.cues })
    let s2 := s1.setCue { s1.cue with active := s1.cue.active ++ [⟨n, s1.rtu.counter, 0⟩] }
    let f := fireActions n 1 c.actions ⟨s2, 0, 0, 0⟩
    judge none
      (raise .cueFired
        [.u2 n, .u2 source.code, opt2 source.camera, .u2 f.atOnce, .u2 f.overflow, .u2 f.entries,
          .u2 (f.state.outstanding n), opt2 f.state.cue.standby] f.state)

/-! ## The work at a frame boundary, R117 to R119 -/

/-- R117: the advance count of a boundary. -/
def CueEngine.advance (c : CueEngine) : Nat :=
  if c.hold then c.step.getD 0 else 1

/-- Insert by remaining, after the entries that are not above it. -/
def insertDue (e : WaitEntry) : List WaitEntry → List WaitEntry
  | [] => [e]
  | x :: rest => if e.remaining < x.remaining then e :: x :: rest else x :: insertDue e rest

/-- R118: the entries that an advance of `a` brings to 0, in due order. -/
def dueEntries (a : Nat) (waits : List WaitEntry) : List WaitEntry :=
  if a = 0 then [] else (waits.filter (fun e => decide (e.remaining ≤ a))).foldl (fun l e => insertDue e l) []

/-- R117: the wait list after an advance, without the entries that fall due. -/
def laterEntries (a : Nat) (waits : List WaitEntry) : List WaitEntry :=
  (waits.filter (fun e => decide (a < e.remaining))).map (fun e => { e with remaining := e.remaining - a })

/-- R117: time advances by `a` frames. -/
def advanceTime (a : Nat) (s : State) : State :=
  let s1 := advanceFades a s
  judge none
    (s1.setCue { s1.cue with
      waits := laterEntries a s1.cue.waits
      follow := s1.cue.follow.map (fun f => { f with remaining := f.remaining - a }) })

/-- R118, R123: a due entry executes and leaves the wait list. -/
def runDue (e : WaitEntry) (s : State) : State :=
  let s1 := refDown e.action (runAction e.owner e.position true e.action s)
  judge none (lowerCount (ownerOf e.owner) s1)

/-- The trigger of the standby cue, if there is a standby that is stored. -/
def CueEngine.standbyTrigger (c : CueEngine) : Option (Nat × Trigger) :=
  match c.standby with
  | none => none
  | some n => (c.cues.find n).map (fun q => (n, q.trigger))

/-- R119, third source. -/
def tallyFire (rises : List Nat) (s : State) : State :=
  match s.cue.standbyTrigger with
  | some (n, .tally cam) => if cam ∈ rises then fireCue n (.tally cam) s else s
  | _ => s

/-- R119: choose at most one cue to fire. `ran` says whether the follow timer was running before this boundary. -/
def chooseFire (ran : Bool) (a : Nat) (rises : List Nat) (s : State) : State :=
  match s.cue.pending with
  | some (n, src) =>
    fireCue n (match src with
      | .go => .go
      | .goCue => .goCue) (s.setCue { s.cue with pending := none })
  | none =>
    if ran && decide (0 < a) && decide ((s.cue.follow.map (·.remaining)) = some 0) then
      let s1 := s.setCue { s.cue with follow := none }
      match s1.cue.standbyTrigger with
      | some (n, .follow _) => fireCue n .follow s1
      | _ => tallyFire rises s1
    else tallyFire rises s

/-- R117 to R119 and R139: the engine's work at a boundary at which the cameras `rises` have a tally rise. -/
def cueAtBoundary (rises : List Nat) (s : State) : State :=
  let a := s.cue.advance
  let ran := s.cue.follow.isSome
  let due := dueEntries a s.cue.waits
  let s0 := s.setCue { s.cue with step := none }
  let s1 := if a = 0 then s0 else advanceTime a s0
  chooseFire ran a rises (due.foldl (fun t e => runDue e t) (startManual s1))

/-! ## STORE CUE and DELETE CUE, R111 to R113 -/

/-- A wall number and a layer number in range. -/
def wallOk (w : Nat) : Bool := decide (w ≤ 3)
def layerOk (l : Nat) : Bool := decide (1 ≤ l) && decide (l ≤ 4)
def sourceOk : Option Nat → Bool
  | none => true
  | some r => decide (r ≤ 63)

/-- The mode and pattern that SET WALL MODE asks for, if its codes name values; the pattern counts for TEST and the
colour for FLAT (R83). Any other mode goes with BARS75, which is what a reply shows as its pattern (the model's choice:
log 23). -/
def modeOf (mode pattern : Nat) (colour : Rgb) : Option (WallMode × Pattern) :=
  match WallMode.ofCode mode with
  | some .test =>
    match Pattern.ofCode pattern colour with
    | some (.flat c) => if rgbInRange c then some (.test, .flat c) else none
    | some p => some (.test, p)
    | none => none
  | some m => some (m, .bars75)
  | none => none

/-- R111 check 1 for the mode of an action: its pattern code must name a pattern whatever the mode is. -/
def actionMode (mode pattern : Nat) (colour : Rgb) : Option (WallMode × Pattern) :=
  match WallMode.ofCode mode, Pattern.ofCode pattern colour with
  | some m, some (.flat c) => if rgbInRange c then some (m, .flat c) else none
  | some m, some p => some (m, p)
  | _, _ => none

/-- R111 check 1 for an action; a duration above 8191 is taken as 8191. -/
def actionOf : RawAction → Option Action
  | .layerSource w l source rect px py =>
    if wallOk w && layerOk l && sourceOk source && coordInRange px && coordInRange py then
      some (.layerSource w l source rect px py)
    else none
  | .layerFade w l level d c =>
    if wallOk w && layerOk l && decide (c ≤ 3) then some (.layerFade w l level (min 8191 d) c) else none
  | .wallFade w level d c => if wallOk w && decide (c ≤ 3) then some (.wallFade w level (min 8191 d) c) else none
  | .levelFade first count level d c =>
    if decide (1 ≤ count) && decide (count ≤ 64) && decide (first + count ≤ 768) && decide (c ≤ 3) then
      some (.levelFade first count level (min 8191 d) c)
    else none
  | .masterFade level d c => if c ≤ 3 then some (.masterFade level (min 8191 d) c) else none
  | .wallMode w m p colour => if wallOk w then (actionMode m p colour).map (fun mp => .wallMode w mp.1 mp.2) else none
  | .unknown _ => none

/-- The actions of a cue, if every one passes check 1; a delay above 8191 is taken as 8191. -/
def actionsOf : List RawTimed → Option (List TimedAction)
  | [] => some []
  | t :: rest =>
    match actionOf t.action, actionsOf rest with
    | some a, some as => some (⟨min 8191 t.delay, a⟩ :: as)
    | _, _ => none

/-- The trigger that a code names (R109, R111). -/
def triggerOf (code arg : Nat) : Option Trigger :=
  match code with
  | 0 => some .go
  | 1 => some (.follow (min 8191 arg))
  | 2 => if arg ≤ 7 then some (.tally arg) else none
  | _ => none

/-- R111 check 1: the cue record of the request. -/
def cueOf (q : StoreCueReq) : Option Cue :=
  match triggerOf q.trigger q.arg, actionsOf q.actions with
  | some t, some as =>
    if q.cue = 0 || as.isEmpty || decide (32 < as.length) then none else some ⟨t, as⟩
  | _, _ => none

/-- R111 check 2: the action names a wall or a region that is not defined. -/
def Action.missing (s : State) (a : Action) : Bool :=
  (match a.wall with
   | some w => !s.wse.walls.has w
   | none => false) ||
  (match a.region with
   | some r => !s.fsc.regions.has r
   | none => false)

/-- R111 check 3: the rectangle does not lie within the region. -/
def Action.badRect (s : State) : Action → Bool
  | .layerSource _ _ (some r) rect _ _ =>
    match s.region r with
    | some x => !rectWithin rect x.width x.height
    | none => false
  | _ => false

/-- The actions of the stored cue of a number. -/
def storedActions (n : Nat) (cues : Table Cue) : List TimedAction :=
  match cues.find n with
  | some c => c.actions
  | none => []

/-- R111 check 4. -/
def cueListFull (n count : Nat) (cues : Table Cue) : Bool :=
  (!cues.has n && decide (200 ≤ cues.length)) ||
    decide (1024 < poolUsed cues - (storedActions n cues).length + count)

/-- R112: the old actions' regions lose their counts before the new actions' regions gain theirs. -/
def replaceCue (n : Nat) (c : Cue) (s : State) : State :=
  let s1 := (storedActions n s.cue.cues).foldl (fun t a => refDown a.action t) s
  let s2 := c.actions.foldl (fun t a => refUp a.action t) s1
  s2.setCue { s2.cue with cues := s2.cue.cues.insert n c }

/-- R111, R112. -/
def storeCue (q : StoreCueReq) (s : State) : Answer :=
  match cueOf q with
  | none => refuse .range s
  | some c =>
    checked
      [(c.actions.any (fun a => a.action.missing s), .noSuch), (c.actions.any (fun a => a.action.badRect s), .range),
        (cueListFull q.cue c.actions.length s.cue.cues, .full)] s
      (let t := replaceCue q.cue c s
       .reply .ok
         [.u2 q.cue, .u1 c.actions.length, .u1 (boolCode (s.cue.cues.has q.cue)), .u1 t.cue.cues.length,
           .u2 (poolUsed t.cue.cues)] t)

/-- STORE_CUE, R111, R112. -/
def execStoreCue (tag : Byte) (q : StoreCueReq) (s : State) : Result :=
  .next (serve (.storeCue tag q) tag 0x40 (storeCue q) s)

/-- R113. -/
def removeCue (n : Nat) (c : Cue) (s : State) : State :=
  let s1 := c.actions.foldl (fun t a => refDown a.action t) s
  s1.setCue { s1.cue with
    cues := s1.cue.cues.erase n
    standby := if s1.cue.standby = some n then nextCue n s1.cue.cues else s1.cue.standby
    pending := if (s1.cue.pending.map (·.1)) = some n then none else s1.cue.pending }

/-- R113. The refusals are checked in the order in which the rule names them (log 38). -/
def deleteCue (n : Nat) (s : State) : Answer :=
  match decide (n = 0), s.cue.cues.find n with
  | true, _ => refuse .range s
  | false, none => refuse .noSuch s
  | false, some c =>
    let t := removeCue n c s
    .reply .ok [.u2 n, opt2 t.cue.standby, .u1 (boolCode (decide ((s.cue.pending.map (·.1)) = some n)))] t

/-- DELETE_CUE, R113. -/
def execDeleteCue (tag : Byte) (n : Nat) (s : State) : Result :=
  .next (serve (.deleteCue tag n) tag 0x41 (deleteCue n) s)

/-! ## Standby and the fire request, R114 to R116 -/

/-- R114. The refusals are checked in the order in which the rule names them (log 38). -/
def standby (n : Nat) (s : State) : Answer :=
  checked [(decide (n = 0), .range), (!s.cue.cues.has n, .noSuch)] s
    (.reply .ok [.u2 n] (s.setCue { s.cue with standby := some n }))

/-- STANDBY, R114. -/
def execStandby (tag : Byte) (n : Nat) (s : State) : Result := .next (serve (.standby tag n) tag 0x42 (standby n) s)

/-- R115, GO. The refusals are checked in the order in which the rule names them (log 38). -/
def go (s : State) : Answer :=
  match s.cue.standby, s.cue.pending with
  | none, _ => refuse .noSuch s
  | some _, some _ => refuse .busy s
  | some n, none => .reply .ok [.u2 n] (s.setCue { s.cue with pending := some (n, .go) })

/-- GO, R115. -/
def execGo (tag : Byte) (s : State) : Result := .next (serve (.go tag) tag 0x43 go s)

/-- R115, GO CUE. The refusals are checked in the order in which the rule names them (log 38). -/
def goCue (n : Nat) (s : State) : Answer :=
  checked [(decide (n = 0), .range), (!s.cue.cues.has n, .noSuch), (s.cue.pending.isSome, .busy)] s
    (.reply .ok [] (s.setCue { s.cue with pending := some (n, .goCue) }))

/-- GO_CUE, R115. -/
def execGoCue (tag : Byte) (n : Nat) (s : State) : Result := .next (serve (.goCue tag n) tag 0x44 (goCue n) s)

/-- R116. -/
def cancelGo (s : State) : Answer :=
  match s.cue.pending with
  | none => refuse .notPending s
  | some (n, _) => .reply .ok [.u2 n] (s.setCue { s.cue with pending := none })

/-- CANCEL_GO, R116. -/
def execCancelGo (tag : Byte) (s : State) : Result := .next (serve (.cancelGo tag) tag 0x45 cancelGo s)

/-! ## Hold and step, R126, R127 -/

/-- RUN is coded 0 and HOLD 1. -/
def holdCue (s : State) : Answer :=
  checked [(s.cue.hold, .wrongState)] s (.reply .ok [.u1 1] (s.setCue { s.cue with hold := true }))

/-- HOLD, R126. -/
def execHold (tag : Byte) (s : State) : Result := .next (serve (.hold tag) tag 0x46 holdCue s)

/-- R126: RELEASE also discards a pending step. -/
def releaseCue (s : State) : Answer :=
  checked [(!s.cue.hold, .wrongState)] s
    (.reply .ok [.u1 0, opt2 s.cue.step] (s.setCue { s.cue with hold := false, step := none }))

/-- RELEASE, R126. -/
def execRelease (tag : Byte) (s : State) : Result := .next (serve (.release tag) tag 0x47 releaseCue s)

/-- R127: a value above 250 is taken as 250. The refusals are checked in the order in which the rule names them (log 38). -/
def stepCue (n : Nat) (s : State) : Answer :=
  checked [(decide (n = 0), .range), (!s.cue.hold, .wrongState), (s.cue.step.isSome, .busy)] s
    (.reply .ok [.u2 (min 250 n)] (s.setCue { s.cue with step := some (min 250 n) }))

/-- STEP, R127. -/
def execStepFrames (tag : Byte) (n : Nat) (s : State) : Result :=
  .next (serve (.stepFrames tag n) tag 0x48 (stepCue n) s)

/-! ## Reading, R128, R129 -/

/-- The fields of an action as stored, in the order of the table of R110, each in the size that chapter 12 gives a
field of a reply. A WALL MODE action sends the colour of its pattern: 0, 0, 0 where the pattern is not FLAT, whatever
STORE CUE gave (the model's choice: log 23). -/
def Action.fields : Action → List Field
  | .layerSource w l source r px py =>
    [.u1 w, .u1 l, opt1 source, .u2 r.x, .u2 r.y, .u2 r.width, .u2 r.height, .i2 px, .i2 py]
  | .layerFade w l level d c => [.u1 w, .u1 l, .u2 level, .u2 d, .u1 c]
  | .wallFade w level d c => [.u1 w, .u2 level, .u2 d, .u1 c]
  | .levelFade first count level d c => [.u2 first, .u1 count, .u2 level, .u2 d, .u1 c]
  | .masterFade level d c => [.u2 level, .u2 d, .u1 c]
  | .wallMode w m p => [.u1 w, .u1 m.code, .u1 p.code, .u2 p.colour.r, .u2 p.colour.g, .u2 p.colour.b]

/-- R128. A search flag other than 1 is none (the model's choice: log 43). The refusals are checked in the order in which the rule names them (log 38). -/
def readCue (n search : Nat) (s : State) : Answer :=
  let found := if search = 1 then s.cue.cues.firstFrom n else (s.cue.cues.find n).map (fun c => (n, c))
  match decide (search ≠ 1) && decide (n = 0), found with
  | true, _ => refuse .range s
  | false, none => refuse .noSuch s
  | false, some (k, c) =>
    .reply .ok
      ([.u2 k, .u1 c.trigger.code, .u2 c.trigger.arg, .u1 c.actions.length] ++
        c.actions.flatMap (fun t => .u1 t.action.code :: .u2 t.delay :: t.action.fields) ++
        [.u1 (boolCode (decide (s.cue.standby = some k))),
          .u1 (boolCode (decide ((s.cue.pending.map (·.1)) = some k))),
          .u1 (boolCode (s.cue.active.any (fun a => decide (a.cue = k)))), s.counterField]) s

/-- READ_CUE, R128. -/
def execReadCue (tag : Byte) (n search : Nat) (s : State) : Result :=
  .next (serve (.readCue tag n search) tag 0x49 (readCue n search) s)

/-- The lowest remaining among wait entries (R129). -/
def lowestRemaining : List WaitEntry → Option Nat
  | [] => none
  | e :: rest =>
    match lowestRemaining rest with
    | none => some e.remaining
    | some m => some (min e.remaining m)

/-- R129. -/
def readCueState (s : State) : Answer :=
  let c := s.cue
  .reply .ok
    ([.u1 (boolCode c.hold), opt2 c.step, opt2 c.standby, opt2 (c.pending.map (·.1)),
        opt1 (c.pending.map (·.2.code)), opt2 c.recent, .u1 (boolCode c.follow.isSome),
        opt2 (c.follow.map (·.remaining)), opt2 (c.follow.map (·.start)), .u1 c.cues.length, .u2 (poolUsed c.cues),
        .u1 c.waits.length, opt2 (lowestRemaining c.waits), .u1 c.active.length] ++
      c.active.flatMap (fun a =>
        [.u2 a.cue, .u4 a.fireFrame.toNat,
          .u2 (s.lvp.fades.countP (fun e => decide (e.2.owner = .cue a.cue))),
          .u1 (c.waits.countP (fun e => decide (e.owner = some a.cue)))]) ++
      [.u1 (c.waits.countP (fun e => decide (e.owner = none))), .u1 (boolCode c.waitOverflow), s.counterField]) s

/-- READ_CUE_STATE, R129. -/
def execReadCueState (tag : Byte) (s : State) : Result := .next (serve (.readCueState tag) tag 0x4A readCueState s)

end Sys2Proof.Machine
end

