-- ==== Sys2Proof/Machine/Flags.lean ====
section
/-! DEFINITION. The flags: the sticky flags CLIP and SHED of a wall, WAIT_OVERFLOW, FADE_OVERFLOW and SAT, the counts
reported beside them, READ STATUS (R177) and CLEAR FLAGS (R178). WAIT_OVERFLOW is set in Cue.lean (R120),
FADE_OVERFLOW and SAT in Level.lean (R133, R141), CLIP and SHED by the two operations here. -/

namespace Sys2Proof.Machine

/-! ## Setting -/

/-- R100: CLIP of a wall is set when a value sent was clipped. -/
def setClip (w : Nat) (clipped : Bool) (s : State) : State :=
  modWall w (fun x => { x with clipFlag := x.clipFlag || clipped }) s

/-- R92: a frame in which a wall sheds sets its SHED flag, and the field shedding tells whether it does. -/
def Wall.setShed (x : Wall) (shedding : Bool) : Wall :=
  { x with shedding := shedding, shedFlag := x.shedFlag || shedding }

/-! ## Reading, R177 -/

/-- A set of walls as one byte, bit i for wall i. -/
def wallSet (p : Wall → Bool) (walls : Table Wall) : Nat :=
  (walls.map (fun e => if p e.2 then 2 ^ e.1 else 0)).sum

/-- The byte of the SAT set that holds channels 8k to 8k + 7 (chapter 12, Fields not laid out above). -/
def satByte (s : State) (k : Nat) : Nat :=
  ((List.range 8).map (fun b => if (s.channel (8 * k + b)).sat then 2 ^ b else 0)).sum

/-- The mask byte: bit c − 1 for class code c (chapter 12, Notice body). -/
def NoticeMask.byte (m : NoticeMask) : Nat :=
  boolCode m.timing + 2 * boolCode m.store + 4 * boolCode m.wall + 8 * boolCode m.cue + 16 * boolCode m.fixture +
    32 * boolCode m.bus

/-- R177: the values that READ STATUS reports. The CLIP flags and the SHED flags go out as a set of walls each, in which a
wall that is not defined is clear (the model's choice: log 23). -/
def statusFields (s : State) : List Field :=
  [.u1 (wallSet (·.clipFlag) s.wse.walls), .u1 (wallSet (·.shedFlag) s.wse.walls), .u1 (boolCode s.cue.waitOverflow),
    .u1 (boolCode s.lvp.fadeOverflow)] ++
  (List.range 96).map (fun k => Field.u1 (satByte s k)) ++
  [.u2 s.lkd.linkErrors, .u2 s.lkd.dropped, .u1 s.lkd.mask.byte, .u1 s.lkd.requests.length,
    .u1 (noticeCount s.lkd.ready), .u1 (boolCode s.fsc.showLock), .u1 s.fsc.store.code, s.counterField]

/-- READ STATUS, R177. -/
def readStatus (s : State) : Answer := .reply .ok (statusFields s) s

/-- READ_STATUS, R177. -/
def execReadStatus (tag : Byte) (s : State) : Result := .next (serve (.readStatus tag) tag 0x02 readStatus s)

/-! ## Clearing, R178 -/

/-- The wall's flags after a clearing: each flag whose wall set names the wall is clear. -/
def Wall.clearFlags (q : ClearFlagsReq) (id : Nat) (x : Wall) : Wall :=
  { x with clipFlag := x.clipFlag && !q.clip.testBit id, shedFlag := x.shedFlag && !q.shed.testBit id }

/-- R178: the SAT flags of the channel range. -/
def clearSat (q : ClearFlagsReq) (channels : Vector Channel 768) : Vector Channel 768 :=
  mapNum (fun c ch => if q.first ≤ c ∧ c < q.first + q.count then { ch with sat := false } else ch) channels

/-- R178: every flag named is cleared. -/
def clearNamed (q : ClearFlagsReq) (s : State) : State :=
  { s with
    wse := { s.wse with walls := s.wse.walls.map (fun e => (e.1, e.2.clearFlags q e.1)) }
    cue := { s.cue with waitOverflow := s.cue.waitOverflow && !q.select.testBit 0 }
    lvp := { s.lvp with
      fadeOverflow := s.lvp.fadeOverflow && !q.select.testBit 1
      channels := clearSat q s.lvp.channels }
    lkd := { s.lkd with linkErrors := if q.select.testBit 2 then 0 else s.lkd.linkErrors } }

/-- CLEAR FLAGS, R178; the reply carries the values after the clearing. -/
def clearFlags (q : ClearFlagsReq) (s : State) : Answer :=
  checked [(decide (15 < q.clip) || decide (15 < q.shed) || decide (768 < q.first + q.count), .range)] s
    (.reply .ok (statusFields (clearNamed q s)) (clearNamed q s))

/-- CLEAR_FLAGS, R178. -/
def execClearFlags (tag : Byte) (q : ClearFlagsReq) (s : State) : Result :=
  .next (serve (.clearFlags tag q) tag 0x03 (clearFlags q) s)

end Sys2Proof.Machine
end

