-- ==== Sys2Proof/Machine/Live.lean ====
section
/-! DEFINITION. The Live Input Port, chapter 5: binding, capture, port states, buffer roles. -/

namespace Sys2Proof.Machine

/-- The top at which the four frame counts stop. -/
def countTop : Nat := 4294967295

/-- R71: enter a port state, with LIVE_STATE. Its four frame counts go out in 4 bytes each, as counters do (log 24). -/
def enterLive (old new : LiveState) (cause : LiveCause) (s : State) : State :=
  let s1 := s.setLip { s.lip with port := new }
  raise .liveState
    [.u2 old.code, .u2 new.code, opt2 s1.lip.bound, .u2 cause.code, .u4 s1.lip.complete, .u4 s1.lip.short,
      .u4 s1.lip.skipped, .u4 s1.lip.dropped] s1

/-- No layer latches a buffer. -/
def noLatches : Vector (Option Latch) 16 := Vector.replicate 16 none

/-- No input frame in progress. -/
def Capture.idle_ : Capture := ⟨.idle, 0, 0⟩

/-! ## Buffer roles, R72 -/

/-- R72: some entry of the latch table names the buffer. -/
def Lip.latched (l : Lip) (b : Nat) : Bool := l.latch.toList.any (fun e => decide (e.map (·.buffer) = some b))

/-- R72: the lowest free buffer for a completion in buffer `w`. -/
def Lip.freeBuffer (l : Lip) (w : Nat) : Option Nat :=
  [0, 1, 2].find? (fun b => decide (b ≠ w) && !l.latched b)

/-- R72: the buffer rule for a completion in the writer buffer. -/
def Lip.rotate (l : Lip) : Lip :=
  match l.writer with
  | none => l
  | some w =>
    match l.freeBuffer w with
    | some b =>
      { l with
        newest := some w
        skipped := if l.newest.isSome && !l.shown then satAdd countTop l.skipped 1 else l.skipped
        shown := false
        writer := some b }
    | none => { l with dropped := satAdd countTop l.dropped 1 }

/-! ## How an input frame ends, R68, R69 -/

/-- R68, R69, R72: the frame completes. -/
def completeInput (s : State) : State :=
  let l := { s.lip with
    complete := satAdd countTop s.lip.complete 1, capture := { s.lip.capture with phase := .over } }.rotate
  if l.port = .searching then
    if 2 ≤ l.consecutive + 1 then enterLive .searching .running .feedFound (s.setLip { l with consecutive := 0 })
    else s.setLip { l with consecutive := l.consecutive + 1 }
  else s.setLip l

/-- R68: the frame is found short; what more arrives of it is ignored. Its pixels that wait are still written, ahead of
the next frame's (log 40). -/
def Lip.findShort (l : Lip) : Lip :=
  { l with
    short := satAdd countTop l.short 1, consecutive := 0, capture := { l.capture with phase := .over } }

/-- A frame is in progress: it has started and has neither completed nor been found short. -/
def CapturePhase.inProgress : CapturePhase → Bool
  | .started | .line | .received => true
  | .idle | .over => false

/-- R67, R68: the frame in progress has not completed when something follows it, and is short (log 27). -/
def endInput (s : State) : State := if s.lip.capture.phase.inProgress then s.setLip s.lip.findShort else s

/-! ## Live capture accesses, R67 -/

/-- R67: the pixels of an access for at most `n` of the waiting ones, in a region `width` wide: neighbours of one line
of the picture, in the order received. -/
def lineRun (width : Nat) : Nat → List CapturePixel → List CapturePixel
  | 0, _ => []
  | _, [] => []
  | _ + 1, [p] => [p]
  | n + 1, p :: q :: rest =>
    if q.buffer = p.buffer ∧ q.offset = p.offset + 1 ∧ q.offset % width ≠ 0 then p :: lineRun width n (q :: rest)
    else [p]

/-- Write captured pixels to the bound region. -/
def Fsc.writeCaptured (f : Fsc) (r : Region) (pixels : List CapturePixel) : Fsc :=
  pixels.foldl (fun f p => f.writePixel r p.buffer p.offset p.word) f

/-- R67, R74: what an access that wrote `run` leaves of the queue, and capture progress after its last pixel of the frame
that started last (log 40). -/
def Lip.written (l : Lip) (width : Nat) (run : List CapturePixel) : Lip :=
  { l with
    queue := l.queue.drop run.length
    earlier := l.earlier - run.length
    progress := match (run.drop l.earlier).getLast? with
      | some p => some (p.offset / width, p.offset % width + 1)
      | none => l.progress }

/-- One access for at most `n` of the waiting pixels: a line or part of a line (R67). -/
def writeCapture (n : Nat) (r : Region) (s : State) : State :=
  let run := lineRun r.width n s.lip.queue
  (s.setFsc (s.fsc.writeCaptured r run)).setLip (s.lip.written r.width run)

/-- R68: a frame whose pixels have all been received and written completes. -/
def completeIfWritten (s : State) : State :=
  if s.lip.capture.phase = .received ∧ s.lip.queue = [] then completeInput s else s

/-- The bound region's record. -/
def State.boundRegion (s : State) : Option Region := s.lip.bound.bind s.region

/-- A live capture access for at most `n` of the waiting pixels (R67); the frame completes with its last one (R68). -/
def liveCapture (n : Nat) (s : State) : Result :=
  match s.boundRegion with
  | none => .next s
  | some r => if s.fsc.inStore r then .next (completeIfWritten (writeCapture n r s)) else .fault .outsideStore

/-- A live capture access for at most `n` pixels writes the last ones that wait (R68). -/
def State.lastRun (s : State) (n : Nat) : Bool :=
  match s.boundRegion with
  | none => false
  | some r => decide ((lineRun r.width n s.lip.queue).length = s.lip.queue.length)

/-- R75: a full reset that falls within a live capture access leaves the first `n` of its pixels written (log 14). -/
def abandonCapture (n : Nat) (s : State) : Fsc :=
  match s.boundRegion with
  | none => s.fsc
  | some r => s.fsc.writeCaptured r (lineRun r.width n s.lip.queue)

/-! ## Events of the live input -/

/-- R67: an input frame starts. -/
def Lip.beginInput (l : Lip) : Lip :=
  { l with silence := 0, capture := ⟨.started, 0, 0⟩, progress := some (0, 0), earlier := l.queue.length }

/-- INPUT_FRAME_START, R67, R70. -/
def execInputFrameStart (s : State) : Result :=
  if s.lip.port = .off then .next s
  else
    let s1 := endInput s
    let s2 := s1.setLip (s1.lip.beginInput)
    if s2.lip.port = .lost then
      .next (enterLive .lost .searching .feedSeen (s2.setLip { s2.lip with consecutive := 0 }))
    else .next s2

/-- LINE_STROBE, R67, R68. -/
def execLineStrobe (s : State) : Result :=
  match s.lip.capture.phase, s.boundRegion with
  | .started, some _ => .next (s.setLip { s.lip with capture := ⟨.line, 0, 0⟩ })
  | .line, some r =>
    if s.lip.capture.pixel < r.width then .next (s.setLip s.lip.findShort)
    else .next (s.setLip { s.lip with capture := ⟨.line, s.lip.capture.line + 1, 0⟩ })
  | _, _ => .next s

/-- INPUT_PIXEL, R67, R68: pixel x of line y, to the writer buffer if within the region. -/
def execInputPixel (r g b : BitVec 10) (s : State) : Result :=
  match s.lip.capture.phase, s.boundRegion with
  | .line, some reg =>
    let c := s.lip.capture
    let word : Word := wordOf ⟨r.toNat, g.toNat, b.toNat⟩
    let queue :=
      if c.pixel < reg.width ∧ c.line < reg.height then
        s.lip.queue ++ [⟨s.lip.writer.getD 0, c.line * reg.width + c.pixel, word⟩]
      else s.lip.queue
    let phase :=
      if c.line + 1 = reg.height ∧ c.pixel + 1 = reg.width then CapturePhase.received else CapturePhase.line
    .next (s.setLip { s.lip with queue := queue, capture := ⟨phase, c.line, c.pixel + 1⟩ })
  | _, _ => .next s

/-- INPUT_FRAME_COMPLETE, R48, R68: the live capture access that writes the last pixels of a frame received in full.
It is granted the DRAM when no scan fetch waits, as the command says by coming (log 10), and carries what is left of one
line. -/
def execInputFrameComplete (s : State) : Result :=
  let n := s.lip.queue.length
  if arbitrate ⟨none, n⟩ s = some .live ∧ s.lip.capture.phase = .received ∧ s.lastRun n = true then liveCapture n s
  else .next s

/-- R70: the silence count at a boundary; in RUNNING the boundary that brings it to 4 enters LOST. -/
def liveAtBoundary (s : State) : State :=
  if s.lip.port = .off then s
  else
    let s1 := s.setLip { s.lip with silence := satAdd 4 s.lip.silence 1 }
    if s.lip.port = .running ∧ s.lip.silence = 3 then
      let s2 := endInput s1
      enterLive .running .lost .feedLost (s2.setLip { s2.lip with queue := [], earlier := 0 })
    else s1

/-! ## SET LIVE INPUT, R65, R66 -/

/-- R66: the released region's roles end. -/
def Lip.unbind (l : Lip) : Lip :=
  { l with bound := none, writer := none, newest := none, latch := noLatches, queue := [], earlier := 0 }

/-- R66: what the named region, or NONE, is bound as. -/
def Lip.bind_ (l : Lip) (region : Option Nat) : Lip :=
  match region with
  | some id =>
    { l with
      bound := some id, writer := some 0, newest := none, shown := false, latch := noLatches, queue := []
      earlier := 0, progress := none, capture := Capture.idle_, consecutive := 0, silence := 0, complete := 0, short := 0
      skipped := 0, dropped := 0 }
  | none => { l with capture := Capture.idle_, progress := none }

/-- R66: change the binding. -/
def rebind (region : Option Nat) (s : State) : State :=
  enterLive s.lip.port (if region.isSome then .searching else .off) .settings
    (s.setLip ((if s.lip.bound.isSome then s.lip.unbind else s.lip).bind_ region))

/-- The air count of a region, 0 if it is not defined. -/
def State.airOf (s : State) (id : Option Nat) : Nat :=
  match id.bind s.region with
  | some r => r.air
  | none => 0

/-- R65, checks 3 to 5, for a region named. -/
def liveFailing (region : Option Nat) (s : State) : Option Status :=
  match region with
  | none => none
  | some id =>
    match s.region id with
    | none => some .noSuch
    | some r =>
      firstFailing
        [(decide (r.kind = .still), .wrongState), (decide (s.lip.bound ≠ some id) && decide (0 < r.air), .inUse)]

/-- R65. -/
def setLiveInput (region : Option Nat) (s : State) : Answer :=
  let tail (t : State) : Answer := .reply .ok [opt1 t.lip.bound, .u1 t.lip.port.code] t
  match firstFailing
      [(s.fsc.showLock, .locked), (decide (63 < region.getD 0), .range)], liveFailing region s with
  | some st, _ => refuse st s
  | none, some st => refuse st s
  | none, none =>
    if region = s.lip.bound then tail s
    else if 0 < s.airOf s.lip.bound then refuse .inUse s
    else tail (rebind region s)

/-- SET_LIVE_INPUT, R65, R66. -/
def execSetLiveInput (tag : Byte) (region : Option Nat) (s : State) : Result :=
  .next (serve (.setLiveInput tag region) tag 0x29 (setLiveInput region) s)

/-! ## READ LIVE, R74 -/

/-- R74: the layers that latch a buffer. Each is named by its wall, its layer 1..4 and the kind of its latch, one byte
each (the model's choice: log 34). -/
def Lip.latchers (l : Lip) (b : Nat) : List Field :=
  let entries := (mapFrom (fun i e => (i, e)) 0 l.latch.toList).filter (fun e => decide (e.2.map (·.buffer) = some b))
  .u1 entries.length ::
    entries.flatMap (fun e =>
      [.u1 (e.1 / 4), .u1 (e.1 % 4 + 1), opt1 (e.2.map (fun x => x.kind.code))])

/-- R74: capture progress, IDLE as NONE in both of its fields (log 34). After a frame has ended, and before the next
starts, it is the line and pixel that frame reached (log 40). -/
def Lip.progressFields (l : Lip) : List Field :=
  match l.progress with
  | none => [.none2, .none2]
  | some (line, pixel) => [.u2 line, .u2 pixel]

/-- R74. -/
def readLive (s : State) : Answer :=
  let l := s.lip
  let role (b : Nat) : List Field :=
    [.u1 (boolCode (decide (l.writer = some b))), .u1 (boolCode (decide (l.newest = some b))),
      .u1 (boolCode (l.latched b))] ++ l.latchers b
  .reply .ok
    ([opt1 l.bound, .u1 l.port.code, opt1 l.writer, opt1 l.newest, .u1 (boolCode l.shown)] ++
      role 0 ++ role 1 ++ role 2 ++
      l.progressFields ++
      [.u1 l.consecutive, .u1 l.silence, .u4 l.complete, .u4 l.short, .u4 l.skipped, .u4 l.dropped, s.counterField]) s

/-- READ_LIVE, R74. -/
def execReadLive (tag : Byte) (s : State) : Result := .next (serve (.readLive tag) tag 0x2A readLive s)

end Sys2Proof.Machine
end

