-- ==== Sys2Proof/Machine/Phase.lean ====
section
/-! DEFINITION. The Camera Phase Unit, chapter 2: tally, the on-air winner, the slew of the scan phase, latch instants
and period starts, and its requests. -/

namespace Sys2Proof.Machine

/-! ## The work at a boundary, R19 to R24 -/

/-- R19: what a tally line's level reads through the polarity. -/
def LinePolarity.reads (p : LinePolarity) (high : Bool) : Bool :=
  match p with
  | .activeLow => !high
  | .activeHigh => high

/-- R19: the raw tally of camera `i` with its line at level `high`. -/
def Camera.sample (c : Camera) (high : Bool) : Bool :=
  match c.source with
  | .line => c.polarity.reads high
  | .link => c.linkTally

/-- R19: sample every camera. -/
def Cph.sample (c : Cph) (lines : BitVec 8) : Cph :=
  { c with
    lines := lines
    cameras := mapNum (fun i cam => { cam with raw := cam.sample (lines.getLsbD i) }) c.cameras }

/-- Camera `i`. -/
def Cph.camera (c : Cph) (i : Nat) : Camera := at_ c.cameras i Camera.reset

/-- R20: the cameras whose raw tally was off before the sampling and is on after it. -/
def tallyRises (before after : Cph) : List Nat :=
  (List.range 8).filter (fun i => !(before.camera i).raw && (after.camera i).raw)

/-- R22: the on-air winner. -/
def Cph.settle (c : Cph) : Option Nat :=
  match (List.range 8).find? (fun i => (c.camera i).raw && (c.camera i).preferred) with
  | some i => some i
  | none => (List.range 8).find? (fun i => (c.camera i).raw)

/-- R22: the target phase for a winner. -/
def Cph.targetFor (c : Cph) : Option Nat → Nat
  | some i => (c.camera i).phase
  | none => c.idlePhase

/-- R24: one step of the scan phase toward the target, the shorter way round. -/
def slewStep (phase target limit : Nat) : Nat :=
  let d := (target + 1024 - phase) % 1024
  if d ≤ 512 then (phase + min d limit) % 1024 else (phase + 1024 - min (1024 - d) limit) % 1024

/-- R22, R24: settle winner and target and step the scan phase. -/
def Cph.step (c : Cph) : Cph :=
  let w := c.settle
  let t := c.targetFor w
  { c with winner := w, target := t, phase := slewStep c.phase t c.slewLimit }

/-- R23. -/
def cameraChange (before : Option Nat) (s : State) : State :=
  if s.cph.winner = before then s
  else raise .cameraChange [opt2 before, opt2 s.cph.winner, .u2 s.cph.target, .u2 s.cph.phase] s

/-- R19 to R24: the unit's work at a boundary with the tally lines at `lines`. -/
def cphAtBoundary (lines : BitVec 8) (s : State) : State :=
  cameraChange s.cph.winner (s.setCph (s.cph.sample lines).step)

/-! ## Placing work in the frame, R25, R26 -/

/-- R25: latch instant k of a wall with refresh multiplier M. -/
def latchTick (phase m k : Nat) : Nat := (phase * 64 + k * 65536 / m) % 65536

/-- R26: the period length for divisor Q. -/
def periodTicks (q : Nat) : Nat := 65536 / q

/-- R26: period start j of an output with divisor Q. -/
def periodTick (phase q j : Nat) : Nat := (phase * 64 + j * periodTicks q) % 65536

/-! ## Requests -/

/-- R21. The model checks RANGE before WRONG_STATE (log 38). -/
def tally (camera state : Nat) (s : State) : Answer :=
  checked
    [(decide (7 < camera), .range), ((boolOfCode state).isNone, .range),
      (decide ((s.cph.camera camera).source = .line), .wrongState)] s
    (.reply .ok []
      (s.setCph { s.cph with
        cameras := put s.cph.cameras camera { s.cph.camera camera with linkTally := decide (state = 1) } }))

/-- TALLY, R21. -/
def execTally (tag : Byte) (camera state : Nat) (s : State) : Result :=
  .next (serve (.tally tag camera state) tag 0x17 (tally camera state) s)

/-- The profile of a camera as a reply carries it. -/
def Camera.fields (c : Camera) : List Field :=
  [.u2 c.phase, .u1 (boolCode c.preferred), .u1 c.source.code, .u1 c.polarity.code]

/-- R27: the profile as the request leaves it, if every value given is in range. A change of tally source sets the
link tally to off. -/
def Camera.newProfile (c : Camera) (q : SetCameraReq) : Option Camera :=
  match keepOr c.phase (fun n => if n ≤ 1023 then some n else none) q.phase,
    keepOr c.preferred boolOfCode q.preferred, keepOr c.source TallySource.ofCode q.source,
    keepOr c.polarity LinePolarity.ofCode q.polarity with
  | some ph, some pr, some so, some po =>
    some { c with
      phase := ph, preferred := pr, source := so, polarity := po,
      linkTally := if so = c.source then c.linkTally else false }
  | _, _, _, _ => none

/-- R27. The model checks LOCKED before RANGE (log 38). -/
def setCamera (q : SetCameraReq) (s : State) : Answer :=
  match firstFailing [(s.fsc.showLock, .locked), (decide (7 < q.camera), .range)],
    (s.cph.camera q.camera).newProfile q with
  | some st, _ => refuse st s
  | none, none => refuse .range s
  | none, some c => .reply .ok c.fields (s.setCph { s.cph with cameras := put s.cph.cameras q.camera c })

/-- SET_CAMERA, R27. -/
def execSetCamera (tag : Byte) (q : SetCameraReq) (s : State) : Result :=
  .next (serve (.setCamera tag q) tag 0x14 (setCamera q) s)

/-- R28. The model checks LOCKED before RANGE (log 38). -/
def setIdlePhase (phase : Nat) (s : State) : Answer :=
  checked [(s.fsc.showLock, .locked), (decide (1023 < phase), .range)] s
    (.reply .ok [.u2 phase] (s.setCph { s.cph with idlePhase := phase }))

/-- SET_IDLE_PHASE, R28. -/
def execSetIdlePhase (tag : Byte) (phase : Nat) (s : State) : Result :=
  .next (serve (.setIdlePhase tag phase) tag 0x15 (setIdlePhase phase) s)

/-- R29: 0 is taken as 1 and a request above 1024 as 1024. -/
def setSlew (limit : Nat) (s : State) : Answer :=
  checked [(s.fsc.showLock, .locked)] s
    (.reply .ok [.u2 (clamp 1 1024 limit)] (s.setCph { s.cph with slewLimit := clamp 1 1024 limit }))

/-- SET_SLEW, R29. -/
def execSetSlew (tag : Byte) (limit : Nat) (s : State) : Result :=
  .next (serve (.setSlew tag limit) tag 0x16 (setSlew limit) s)

/-- The tally lines as last given (log 5). -/
def setLines (lines : BitVec 8) (s : State) : State := s.setCph { s.cph with lines := lines }

/-- The tally lines at the moment of a command that may carry them (log 5). -/
def senseLines : Option (BitVec 8) → State → State
  | none, s => s
  | some lines, s => setLines lines s

/-- R30: the present level of each line is read through its polarity, whatever the camera's source. The groups of eight
go out with no count (log 23). -/
def readPhase (s : State) : Answer :=
  let c := s.cph
  let per (f : Nat → Camera → Field) : List Field := mapFrom f 0 c.cameras.toList
  .reply .ok
    (c.cameras.toList.flatMap Camera.fields ++
      [.u2 c.idlePhase, .u2 c.slewLimit] ++
      per (fun _ cam => .u1 (boolCode cam.linkTally)) ++
      per (fun _ cam => .u1 (boolCode cam.raw)) ++
      per (fun i cam => .u1 (boolCode (cam.polarity.reads (c.lines.getLsbD i)))) ++
      [opt1 c.winner, .u2 c.target, .u2 c.phase, s.counterField]) s

/-- READ_PHASE, R30: the tally lines as they stand at the moment of the command; a request that waits in the queue
carries no levels, and is answered with those given last (log 5). -/
def execReadPhase (r : ReadPhaseReq) (s : State) : Result :=
  .next (serve (.readPhase ⟨r.tag, none⟩) r.tag 0x18 readPhase (senseLines r.lines s))

end Sys2Proof.Machine
end

