-- ==== Sys2Proof/Machine/Pixel.lean ====
section
/-! DEFINITION. The pixel path, chapter 7: what a layer offers, the composition of a wall, tile correction, test
patterns, tile order, zones; and the events that carry it out: scan fetch and live capture accesses, latch instants,
chain echoes and zone completion. -/

namespace Sys2Proof.Machine

/-! ## From source to canvas, R79, R96 to R98 -/

/-- R79: canvas pixel (x, y) lies within the layer's placement. -/
def Layer.covers (l : Layer) (x y : Nat) : Bool :=
  decide (l.px ≤ x) && decide ((x : Int) < l.px + l.rect.width) && decide (l.py ≤ y) &&
    decide ((y : Int) < l.py + l.rect.height)

/-- R79: the pixel offset in a region `width` pixels wide of the source pixel shown at canvas pixel (x, y). -/
def Layer.sourceOffset (l : Layer) (width x y : Nat) : Nat :=
  ((l.rect.y : Int) + y - l.py).toNat * width + ((l.rect.x : Int) + x - l.px).toNat

/-- The buffer named by the latch table entry of layer 1..4 of a wall (R73). -/
def State.latched (s : State) (w layer : Nat) : Option Nat := (at_ s.lip.latch (w * 4 + layer - 1) none).map (·.buffer)

/-- R96: the buffer that a layer reads, if it offers anything at all. -/
def State.sourceBuffer (s : State) (w layer id : Nat) (r : Region) : Option Nat :=
  match r.kind with
  | .still => some 0
  | .live => if s.isBound id then s.latched w layer else some 0

/-- R96: what layer 1..4 of wall `w` offers at canvas pixel (x, y). -/
def State.offer (s : State) (w layer : Nat) (fl : FrameLayer) (x y : Nat) : Option Rgb :=
  match fl.admission, fl.layer.source, fl.region with
  | .admitted, some id, some r =>
    if fl.layer.covers x y then
      (s.sourceBuffer w layer id r).map (fun b => rgbOf (s.fsc.readPixel r b (fl.layer.sourceOffset r.width x y)))
    else none
  | _, _, _ => none

/-- R97: one component of a layer with opacity `a` over the accumulator. -/
def blend (acc sample a : Nat) : Nat :=
  if acc ≤ sample then acc + (sample - acc) * a / 65535 else acc - (acc - sample) * a / 65535

/-- R97: one layer over the accumulators. -/
def blendLayer (a : Nat) (acc : Rgb) : Option Rgb → Rgb
  | none => acc
  | some c => ⟨blend acc.r c.r a, blend acc.g c.g a, blend acc.b c.b a⟩

/-- R98: brightness on one component. -/
def dim (acc brightness : Nat) : Nat := acc * brightness / 65535

/-- A layer of the frame in progress that shows nothing. -/
def FrameLayer.none_ : FrameLayer := ⟨Layer.none_, 0, none, none, 0, .inactive⟩

/-- R97: the layers from number `layer` on over the accumulators. -/
def State.composeFrom (s : State) (w x y : Nat) : Nat → List FrameLayer → Rgb → Rgb
  | _, [], acc => acc
  | layer, fl :: rest, acc =>
    s.composeFrom w x y (layer + 1) rest (blendLayer fl.opacity acc (s.offer w layer fl x y))

/-- R97, R98: the wall value of canvas pixel (x, y). -/
def State.wallValue (s : State) (w : Nat) (background : Rgb) (f : FrameParams) (x y : Nat) : Rgb :=
  let c := s.composeFrom w x y 1 f.layers.toList background
  ⟨dim c.r f.brightness, dim c.g f.brightness, dim c.b f.brightness⟩

/-! ## Composition in runs, R98, R105 -/

/-- Canvas pixels of a wall. -/
def Wall.area (x : Wall) : Nat := x.width * x.height

/-- The wall values of `n` canvas pixels from raster position `start` on. -/
def State.runValues (s : State) (w : Nat) (x : Wall) (f : FrameParams) (start n : Nat) : List Rgb :=
  (List.range n).map (fun i => s.wallValue w x.background f ((start + i) % x.width) ((start + i) / x.width))

/-- R105: one composed pixel of a zone's wall. -/
def Zone.add (z : Zone) (x y : Nat) (v : Rgb) : Zone :=
  if rectCovers z.rect x y then
    { z with sumR := z.sumR + v.r, sumG := z.sumG + v.g, sumB := z.sumB + v.b, taken := z.taken + 1 }
  else z

/-- R105: a run of composed pixels, in a canvas `width` wide, from raster position `p` on. -/
def Zone.addRun (width : Nat) : Nat → List Rgb → Zone → Zone
  | _, [], z => z
  | p, v :: rest, z => Zone.addRun width (p + 1) rest (z.add (p % width) (p / width) v)

/-- Scan fetch composes the next `n` canvas pixels of wall `w`, or as many as are left (log 11). -/
def composeRun (w n : Nat) (x : Wall) (f : FrameParams) (s : State) : State :=
  let start := x.picture.length
  let values := s.runValues w x f start (min n (x.area - start))
  s.setWse { s.wse with
    walls := s.wse.walls.modify w (fun y => { y with picture := y.picture ++ values })
    zones := s.wse.zones.mapAll (fun z =>
      if z.wall = w ∧ z.measuring then z.addRun x.width start values else z) }

/-- Every page that a frame's layers read exists (log 29). -/
def State.framePages (s : State) (f : FrameParams) : Bool :=
  f.layers.toList.all (fun fl =>
    match fl.admission, fl.region with
    | .admitted, some r => s.fsc.inStore r
    | _, _ => true)

/-- A scan fetch access for `n` pixels of wall `w`; a wall with no frame to compose asks for none. -/
def scanFetch (w n : Nat) (s : State) : Result :=
  match s.wall w with
  | none => .next s
  | some x =>
    match x.frame with
    | none => .next s
    | some f => if s.framePages f then .next (composeRun w n x f s) else .fault .outsideStore

/-- DRAM_ACCESS_GRANT, R48: the highest waiting scan fetch or live capture access; the two lower requesters are granted
by BURST_GRANT and CONTENT_READ_GRANT. -/
def execDramAccessGrant (asks : Asks) (s : State) : Result :=
  match arbitrate asks s, asks.scan with
  | some .scan, some (w, n) => scanFetch w n s
  | some .live, _ => liveCapture asks.live s
  | _, _ => .next s

/-! ## Tile output, R99 to R104 -/

/-- What a tile is sent for one component, and whether it was clipped (R99, R100). -/
structure Sent where
  value : Nat
  clipped : Bool
deriving DecidableEq, Repr

/-- R99 steps 2 and 3, R104: offset and clip. -/
def clipStep (v1 offset clip : Nat) : Sent := ⟨min (v1 + offset) clip, decide (clip < v1 + offset)⟩

/-- R99: gain, offset and clip on one component. -/
def correct (v gain offset clip : Nat) : Sent := clipStep (v * gain / 4096) offset clip

/-- R86: the bar that contains canvas column `x`. -/
def barOf (width x : Nat) : Nat :=
  match (List.range 8).find? (fun i => decide (i * width / 8 ≤ x) && decide (x < (i + 1) * width / 8)) with
  | some i => i
  | none => 7

/-- R86: which components of bar `i` are lit: white, yellow, cyan, green, magenta, red, blue, black. -/
def barLit (i : Nat) : Bool × Bool × Bool :=
  match i with
  | 0 => (true, true, true)
  | 1 => (true, true, false)
  | 2 => (false, true, true)
  | 3 => (false, true, false)
  | 4 => (true, false, true)
  | 5 => (true, false, false)
  | 6 => (false, false, true)
  | _ => (false, false, false)

/-- A bar with its lit components at `lit`. -/
def barColour (lit width x : Nat) : Rgb :=
  let b := barLit (barOf width x)
  ⟨if b.1 then lit else 0, if b.2.1 then lit else 0, if b.2.2 then lit else 0⟩

/-- R104: the pattern value at canvas column `x` shown by tile `t`. -/
def Pattern.value (p : Pattern) (width x t : Nat) : Rgb :=
  match p with
  | .bars75 => barColour 767 width x
  | .bars100 => barColour 1023 width x
  | .tileId => ⟨t % 32 * 33, t % 32 * 33, t % 32 * 33⟩
  | .flat c => c

/-- R99, R103, R104: what tile `t` is sent for canvas column `x` with wall value `v`. -/
def tileOutput (f : FrameParams) (width x t : Nat) (c : Correction) (v : Rgb) : Sent × Sent × Sent :=
  match f.mode with
  | .blank => (⟨0, false⟩, ⟨0, false⟩, ⟨0, false⟩)
  | .test =>
    let p := f.pattern.value width x t
    (clipStep p.r c.offset c.clip, clipStep p.g c.offset c.clip, clipStep p.b c.offset c.clip)
  | .normal | .freeze =>
    (correct v.r c.gainR c.offset c.clip, correct v.g c.gainG c.offset c.clip, correct v.b c.gainB c.offset c.clip)

/-- R102: the canvas pixel sent as tile pixel `k`. -/
def Tile.canvasPixel (t : Tile) (k : Nat) : Nat × Nat :=
  let i := k % t.rect.width
  let j := k / t.rect.width
  match t.orientation with
  | .normal => (t.rect.x + i, t.rect.y + j)
  | .turned => (t.rect.x + t.rect.width - 1 - i, t.rect.y + t.rect.height - 1 - j)

/-- R102: what a tile is sent, in tile order, from the picture of its wall. -/
def tileData (x : Wall) (f : FrameParams) (id : Nat) (t : Tile) : List (Sent × Sent × Sent) :=
  (List.range (t.rect.width * t.rect.height)).map (fun k =>
    let p := t.canvasPixel k
    tileOutput f x.width p.1 id t.correction (x.picture.getD (p.2 * x.width + p.1) ⟨0, 0, 0⟩))

def sentRgb (d : Sent × Sent × Sent) : Rgb := ⟨d.1.value, d.2.1.value, d.2.2.value⟩
def sentClipped (d : Sent × Sent × Sent) : Bool := d.1.clipped || d.2.1.clipped || d.2.2.clipped

/-! ## Chains, R89 -/

/-- Insert a tile by its chain position. -/
def insertTile (e : Nat × Tile) : Table Tile → Table Tile
  | [] => [e]
  | x :: rest => if e.2.position < x.2.position then e :: x :: rest else x :: insertTile e rest

/-- The tiles that a chain carries in a tile map, in increasing chain position (R89). -/
def chainTiles (c : Nat) (tiles : Table Tile) : Table Tile :=
  (tiles.filter (fun e => decide (e.2.chain = c))).foldl (fun l e => insertTile e l) []

/-- R89: the check word of a chain in the frame with a counter: free but for its lowest bit, which makes it differ in
consecutive frames (log 13). -/
def checkWord (chain : Nat) (counter : BitVec 32) : Nat :=
  2 * Config.checkWordBody chain counter.toNat + counter.toNat % 2

/-- R89: a sub-frame is sent to a chain, with the check word if this is the frame's first. -/
def Chain.send (x : Wall) (f : FrameParams) (number : Nat) (counter : BitVec 32) (tiles : Table Tile) (c : Chain) :
    Chain :=
  { c with
    sent := some (c.sent.getD (checkWord number counter))
    out := tiles.map (fun e => (e.1, (tileData x f e.1 e.2).map sentRgb)) }

/-- R89: whether a chain carries tiles of wall `w` in the frame in progress. -/
def State.carries (s : State) (w c : Nat) : Bool :=
  s.wse.frameTiles.any (fun e => decide (e.2.chain = c) && decide (e.2.wall = w))

/-- R100: some value sent to some tile of the wall was clipped. -/
def State.anyClipped (s : State) (w : Nat) (x : Wall) (f : FrameParams) : Bool :=
  s.wse.frameTiles.any (fun e => decide (e.2.wall = w) && (tileData x f e.1 e.2).any sentClipped)

/-- R82, R89, R100: the sub-frame of a latch instant goes down the chains of the wall, whose picture is complete. -/
def sendSubFrame (w : Nat) (x : Wall) (f : FrameParams) (s : State) : State :=
  setClip w (s.anyClipped w x f)
    (s.setWse { s.wse with
      chains := mapNum (fun c ch =>
        if s.carries w c then ch.send x f c s.rtu.counter (chainTiles c s.wse.frameTiles) else ch) s.wse.chains })

/-- The tick position moves on to the tick of an event of the frame in progress (log 4). -/
def moveTick (t : Nat) (s : State) : State := s.setRtu { s.rtu with tick := max s.rtu.tick t }

/-- R25: latch instant `k` of a wall occurs at tick `t` of the frame in progress: the frame has not passed it, as in the
ticks above 65535, and it has not been reached before. -/
def State.instantDue (s : State) (x : Wall) (k t : Nat) : Bool :=
  decide (k < x.refresh) && decide (s.rtu.tick ≤ t) && !x.reached.contains k

/-- R25: latch instant `k` of wall `w` has been reached. -/
def reach (w k : Nat) (s : State) : State := modWall w (fun y => { y with reached := k :: y.reached }) s

/-- LATCH_INSTANT, R25, R82: latch instant `k` of wall `w` (log 31). The picture is composed as far as it was not yet
(log 12). -/
def execLatchInstant (w k : Nat) (s : State) : Result :=
  match s.wall w with
  | none => .next s
  | some x =>
    match x.frame with
    | none => .next s
    | some f =>
      let t := latchTick s.cph.phase x.refresh k
      if s.instantDue x k t then
        if s.framePages f then
          let s1 := composeRun w x.area x f (reach w k (moveTick t s))
          match s1.wall w with
          | none => .next s1
          | some y => .next (sendSubFrame w y f s1)
        else .fault .outsideStore
      else .next s

/-- CHAIN_ECHO, R90: a word returned on a chain's echo line is recorded for the judgement of the frame. -/
def execChainEcho (chain word : Nat) (s : State) : Result :=
  if chain ≤ 7 then
    let c := at_ s.wse.chains chain Chain.reset
    .next (s.setWse { s.wse with
      chains := put s.wse.chains chain { c with returned := c.returned ++ [word] } })
  else .next s

/-! ## Zones, R106 -/

/-- R106: the averages and the luma. -/
def Zone.averages (z : Zone) : Averages :=
  let n := z.rect.width * z.rect.height
  let r := z.sumR / n
  let g := z.sumG / n
  let b := z.sumB / n
  ⟨r, g, b, (77 * r + 150 * g + 29 * b) / 256⟩

/-- R106: the zone has taken every pixel of its rectangle, and its event of this frame has not been raised. -/
def Zone.due (z : Zone) : Bool := z.measuring && !z.raised && decide (z.taken = z.rect.width * z.rect.height)

/-- R106: the zone-complete event. -/
def completeZone (id : Nat) (s : State) : State :=
  match s.wse.zones.find id with
  | none => s
  | some z =>
    if z.due then
      trackZone id z.averages
        (s.setWse { s.wse with
          zones := s.wse.zones.insert id
            { z with last := some z.averages, lastFrame := some s.rtu.counter, raised := true } })
    else s

/-- ZONE_COMPLETE, R106. -/
def execZoneComplete (id : Nat) (s : State) : Result := .next (completeZone id s)

end Sys2Proof.Machine
end

