-- ==== Sys2Proof/Machine/Wall.lean ====
section
/-! DEFINITION. Walls, tiles and layers, chapter 6: the requests that change the wall records, the tile map, the
corrections and the zones, the entries into chain states that they make, and the requests that read them. -/

namespace Sys2Proof.Machine

/-! ## Records as replies carry them -/

def rgbFields (c : Rgb) : List Field := [.u2 c.r, .u2 c.g, .u2 c.b]
def rectFields (r : Rect) : List Field := [.u2 r.x, .u2 r.y, .u2 r.width, .u2 r.height]

/-- A mode with its pattern. -/
def modeFields (mode : WallMode) (pattern : Pattern) : List Field :=
  [.u1 mode.code, .u1 pattern.code] ++ rgbFields pattern.colour

/-- A pending mode, or none. -/
def pendingFields : Option (WallMode × Pattern) → List Field
  | none => [.none1, .none1, .none2, .none2, .none2]
  | some mp => modeFields mp.1 mp.2

/-- A layer's parameters with an opacity. -/
def Layer.fields (l : Layer) (opacity : Nat) : List Field :=
  opt1 l.source :: rectFields l.rect ++ [.i2 l.px, .i2 l.py, .u2 opacity]

def HeldLayer.fields (h : HeldLayer) : List Field := h.layer.fields h.opacity ++ [opt1 h.buffer]

/-- The held parameters of a wall, if it is frozen. -/
def heldFields : Option Held → List Field
  | none => [.u1 0]
  | some h => .u1 1 :: h.layers.toList.flatMap HeldLayer.fields ++ [.u2 h.brightness]

/-- The held parameters of layer 1..4, if the wall is frozen. -/
def heldLayerFields (held : Option Held) (layer : Nat) : List Field :=
  match held with
  | none => [.u1 0]
  | some h => .u1 1 :: (at_ h.layers (layer - 1) default).fields

/-- The held brightness of a wall, if it is frozen. -/
def heldBrightnessFields : Option Held → List Field
  | none => [.u1 0]
  | some h => [.u1 1, .u2 h.brightness]

/-- R94: each layer of wall `w`, its current parameters and then its held ones. -/
def State.layersWithHeld (s : State) (w : Nat) (x : Wall) : List Field :=
  [1, 2, 3, 4].flatMap (fun l => (x.layer l).fields (s.level (opacityTarget w l)) ++ heldLayerFields x.held l)

/-- The current parameters of the four layers of wall `w`. -/
def State.layerFields (s : State) (w : Nat) (x : Wall) : List Field :=
  [1, 2, 3, 4].flatMap (fun l => (x.layer l).fields (s.level (opacityTarget w l)))

/-- The wall record, in the order of its table; as the OK of DEFINE WALL carries it, the wall id stands before it (R76;
the model's choice: log 34). -/
def State.wallFields (s : State) (w : Nat) (x : Wall) : List Field :=
  [.u1 w, .u2 x.width, .u2 x.height, .u1 x.refresh] ++ rgbFields x.background ++ modeFields x.mode x.pattern ++
    pendingFields x.pending ++ [.u2 (s.level (brightnessTarget w))] ++ s.layerFields w x ++ heldFields x.held ++
    [.u1 (boolCode x.shedding), .u1 (boolCode x.clipFlag), .u1 (boolCode x.shedFlag)]

/-! ## DEFINE WALL, R76 -/

/-- The five level targets of a wall (R76, R78). -/
def wallTargets (w : Nat) : List Nat :=
  [brightnessTarget w, opacityTarget w 1, opacityTarget w 2, opacityTarget w 3, opacityTarget w 4]

/-- R140: remove every running fade on a wall's targets. -/
def removeWallFades (w : Nat) (s : State) : State := (wallTargets w).foldl (fun t target => removeFade target t) s

/-- The largest sum of canvas areas (R76). -/
def areaLimit : Nat := 8388608

/-- The sum of the areas of the walls defined. -/
def State.areas (s : State) : Nat := (s.wse.walls.map (fun e => e.2.area)).sum

/-- R76: the record of a new wall. -/
def newWall (q : DefineWallReq) : Wall where
  width := q.width
  height := q.height
  refresh := q.refresh
  background := q.background
  mode := .normal
  pattern := .bars75
  pending := none
  layers := Vector.replicate 4 Layer.none_
  held := none
  shedding := false
  clipFlag := false
  shedFlag := false
  frame := none
  picture := []
  reached := []

/-- R76 check 2. -/
def wallOutOfRange (q : DefineWallReq) : Bool :=
  decide (3 < q.wall) || decide (q.width < 16) || decide (7680 < q.width) || decide (q.height < 16) ||
    decide (4320 < q.height) || decide (q.refresh < 1) || decide (8 < q.refresh) || !rgbInRange q.background

/-- R76: create the wall. -/
def createWall (q : DefineWallReq) (s : State) : State :=
  let s1 := s.setWse { s.wse with walls := s.wse.walls.insert q.wall (newWall q) }
  judge none ((wallTargets q.wall).foldl (fun t target => setLevel target 65535 t) (removeWallFades q.wall s1))

/-- R76. -/
def defineWall (q : DefineWallReq) (s : State) : Answer :=
  checked
    [(s.fsc.showLock, .locked), (wallOutOfRange q, .range), (s.wse.walls.has q.wall, .exists_),
      (decide (areaLimit < s.areas + q.width * q.height), .range)] s
    (let t := createWall q s
     .reply .ok (t.wallFields q.wall (newWall q)) t)

/-- DEFINE_WALL, R76. -/
def execDefineWall (tag : Byte) (q : DefineWallReq) (s : State) : Result :=
  .next (serve (.defineWall tag q) tag 0x30 (defineWall q) s)

/-! ## Chain states, R90 -/

/-- The number of tiles on a chain. -/
def tileCount (c : Nat) (tiles : Table Tile) : Nat := tiles.countP (fun e => decide (e.2.chain = c))

/-- The wall that a chain belongs to, if it holds tiles (R89). -/
def chainWall (c : Nat) (tiles : Table Tile) : Option Nat :=
  (tiles.find? (fun e => decide (e.2.chain = c))).map (fun e => e.2.wall)

def State.chain (s : State) (c : Nat) : Chain := at_ s.wse.chains c Chain.reset

def putChain (c : Nat) (x : Chain) (s : State) : State := s.setWse { s.wse with chains := put s.wse.chains c x }

/-- R90: a chain changes state, both counts 0, with CHAIN_STATE naming the wall whose tiles it has, or had when it
becomes IDLE (log 21). -/
def enterChain (c : Nat) (new : ChainState) (wall : Option Nat) (s : State) : State :=
  let old := s.chain c
  let s' := putChain c
    { old with state := new, misses := 0, echoes := 0, whole := if new = .idle then false else old.whole } s
  if old.state = new then s'
  else raise .chainState [.u2 c, .u2 old.state.code, .u2 new.code, opt2 wall, .u2 (tileCount c s.wse.tiles)] s'

/-- R90: chain `c` after its tiles changed from those of the map `before`. -/
def chainTilesChanged (before : Table Tile) (c : Nat) (s : State) : State :=
  match tileCount c before, tileCount c s.wse.tiles with
  | 0, 0 => s
  | 0, _ + 1 => enterChain c .ok (chainWall c s.wse.tiles) s
  | _ + 1, 0 => enterChain c .idle (chainWall c before) s
  | _ + 1, _ + 1 =>
    if chainTiles c before = chainTiles c s.wse.tiles then s
    else putChain c { s.chain c with misses := 0, echoes := 0 } s

/-- R90: every chain after the tile map changed from `before`, in rising order (log 18). -/
def tilesChanged (before : Table Tile) (s : State) : State :=
  (List.range 8).foldl (fun t c => chainTilesChanged before c t) s

/-! ## DELETE WALL, R78 -/

/-- R78, R85: held parameters are released: each held region's air count falls once for each layer holding it. -/
def releaseHeld (held : Option Held) (s : State) : State :=
  match held with
  | none => s
  | some h => h.layers.toList.foldl (fun t l => airDown l.layer.source t) s

/-- R73: every latch entry of a wall's four layers becomes none. -/
def clearLatches (w : Nat) (s : State) : State :=
  s.setLip { s.lip with latch := mapNum (fun i e => if i / 4 = w then none else e) s.lip.latch }

/-- R139: discard the pending manual fades on a wall's targets. -/
def discardManual (w : Nat) (s : State) : State :=
  s.setLvp { s.lvp with manual := s.lvp.manual.filter (fun m => !(wallTargets w).contains m.target) }

/-- R78: the chains freed go low at once, and the frame's tiles of the wall are gone. A chain that left the wall
earlier in the frame and still sends its tiles goes low as well (the model's choice: log 41). -/
def freeChains (w : Nat) (before : Table Tile) (s : State) : State :=
  let freed (c : Nat) : Bool := decide (chainWall c before = some w)
  s.setWse { s.wse with
    frameTiles := s.wse.frameTiles.keep (fun _ t => decide (t.wall ≠ w) && !freed t.chain)
    chains := mapNum (fun c ch => if freed c || s.carries w c then { ch with out := [] } else ch) s.wse.chains }

/-- R78: the tiles of a wall are removed. -/
def removeWallTiles (w : Nat) (s : State) : State :=
  let before := s.wse.tiles
  tilesChanged before
    (freeChains w before (s.setWse { s.wse with tiles := before.keep (fun _ t => decide (t.wall ≠ w)) }))

/-- R78: everything that DELETE WALL does. -/
def removeWall (w : Nat) (x : Wall) (s : State) : State :=
  let s1 := x.layers.toList.foldl (fun t l => airDown l.source t) s
  let s2 := discardManual w (removeWallFades w (clearLatches w (releaseHeld x.held s1)))
  let s3 := removeWallTiles w s2
  judge none
    (s3.setWse { s3.wse with
      zones := s3.wse.zones.keep (fun _ z => decide (z.wall ≠ w)), walls := s3.wse.walls.erase w })

/-- R78. The refusals are checked in the order in which the rule names them (log 38). -/
def deleteWall (w : Nat) (s : State) : Answer :=
  match firstFailing [(s.fsc.showLock, .locked), (decide (3 < w), .range)], s.wall w with
  | some st, _ => refuse st s
  | none, none => refuse .noSuch s
  | none, some x =>
    .reply .ok
      [.u1 w, .u2 (s.wse.tiles.countP (fun e => decide (e.2.wall = w))),
        .u1 (s.wse.zones.countP (fun e => decide (e.2.wall = w)))] (removeWall w x s)

/-- DELETE_WALL, R78. -/
def execDeleteWall (tag : Byte) (w : Nat) (s : State) : Result :=
  .next (serve (.deleteWall tag w) tag 0x31 (deleteWall w) s)

/-! ## SET LAYER, R80 -/

/-- R80 check 4. -/
def layerRectBad (q : SetLayerReq) (s : State) : Bool :=
  match q.source.bind s.region with
  | none => false
  | some r => !rectWithin q.rect r.width r.height

/-- R80: the layer's parameters as the reply carries them. -/
def State.setLayerFields (s : State) (w layer : Nat) : List Field :=
  match s.wall w with
  | none => []
  | some x =>
    (x.layer layer).fields (s.level (opacityTarget w layer)) ++ heldLayerFields x.held layer

/-- R80. -/
def setLayer (q : SetLayerReq) (s : State) : Answer :=
  checked
    [(!wallOk q.wall || !layerOk q.layer || !sourceOk q.source || !coordInRange q.px || !coordInRange q.py, .range),
      (!s.wse.walls.has q.wall, .noSuch),
      ((match q.source with
        | none => false
        | some id => !s.fsc.regions.has id), .noSuch),
      (layerRectBad q s, .range)] s
    (let t := changeLayer q.wall q.layer ⟨q.source, q.rect, q.px, q.py⟩ s
     .reply .ok (t.setLayerFields q.wall q.layer) t)

/-- SET_LAYER, R80. -/
def execSetLayer (tag : Byte) (q : SetLayerReq) (s : State) : Result :=
  .next (serve (.setLayer tag q) tag 0x32 (setLayer q) s)

/-! ## SET WALL MODE, R83 -/

/-- R83. The refusals are checked in the order in which the rule names them (log 38). -/
def setWallMode (q : SetWallModeReq) (s : State) : Answer :=
  match wallOk q.wall, modeOf q.mode q.pattern q.colour, s.wall q.wall with
  | false, _, _ => refuse .range s
  | true, none, _ => refuse .range s
  | true, some _, none => refuse .noSuch s
  | true, some mp, some x =>
    .reply .ok (modeFields x.mode x.pattern ++ modeFields mp.1 mp.2)
      (modWall q.wall (fun y => { y with pending := some mp }) s)

/-- SET_WALL_MODE, R83. -/
def execSetWallMode (tag : Byte) (q : SetWallModeReq) (s : State) : Result :=
  .next (serve (.setWallMode tag q) tag 0x33 (setWallMode q) s)

/-! ## Tiles, R87, R88, R101 -/

/-- A tile side: 16..256, a multiple of 16. -/
def sideOk (n : Nat) : Bool := decide (16 ≤ n) && decide (n ≤ 256) && decide (n % 16 = 0)

/-- R87 check 2, but for the orientation code. -/
def tileOutOfRange (q : SetTileReq) : Bool :=
  decide (255 < q.tile) || !wallOk q.wall || decide (7 < q.chain) || decide (31 < q.position) ||
    !sideOk q.rect.width || !sideOk q.rect.height

/-- R87 checks 3 to 6. -/
def tileFailing (q : SetTileReq) (s : State) : Option Status :=
  match s.wall q.wall with
  | none => some .noSuch
  | some x =>
    let other (p : Tile → Bool) : Bool :=
      s.wse.tiles.any (fun e => decide (e.1 ≠ q.tile) && decide (e.2.chain = q.chain) && p e.2)
    firstFailing
      [(decide (x.width < q.rect.x + q.rect.width) || decide (x.height < q.rect.y + q.rect.height), .range),
        (other (fun t => decide (t.wall ≠ q.wall)), .inUse),
        (other (fun t => decide (t.position = q.position)), .inUse)]

/-- The correction at unity. -/
def Correction.unity : Correction := ⟨4096, 4096, 4096, 0, 1023⟩

/-- R87: the correction of a tile is kept, or starts at unity. -/
def keptCorrection (id : Nat) (tiles : Table Tile) : Correction :=
  match tiles.find id with
  | some t => t.correction
  | none => Correction.unity

def Correction.fields (c : Correction) : List Field := [.u2 c.gainR, .u2 c.gainG, .u2 c.gainB, .u2 c.offset, .u2 c.clip]

/-- A tile record, with the tile id before it (R87; the model's choice: log 34). -/
def Tile.fields (id : Nat) (t : Tile) : List Field :=
  [.u1 id, .u1 t.wall, .u1 t.chain, .u1 t.position] ++ rectFields t.rect ++ .u1 t.orientation.code ::
    t.correction.fields

/-- R87: place the tile. -/
def placeTile (id : Nat) (t : Tile) (s : State) : State :=
  tilesChanged s.wse.tiles (s.setWse { s.wse with tiles := s.wse.tiles.insert id t })

/-- R87. -/
def setTile (q : SetTileReq) (s : State) : Answer :=
  match firstFailing [(s.fsc.showLock, .locked), (tileOutOfRange q, .range)], Orientation.ofCode q.orientation,
    tileFailing q s with
  | some st, _, _ => refuse st s
  | none, none, _ => refuse .range s
  | none, some _, some st => refuse st s
  | none, some o, none =>
    let t : Tile := ⟨q.wall, q.chain, q.position, q.rect, o, keptCorrection q.tile s.wse.tiles⟩
    .reply .ok (t.fields q.tile) (placeTile q.tile t s)

/-- SET_TILE, R87. -/
def execSetTile (tag : Byte) (q : SetTileReq) (s : State) : Result :=
  .next (serve (.setTile tag q) tag 0x34 (setTile q) s)

/-- R88: free a tile id. -/
def takeTile (id : Nat) (s : State) : State :=
  tilesChanged s.wse.tiles (s.setWse { s.wse with tiles := s.wse.tiles.erase id })

/-- R88. The refusals are checked in the order in which the rule names them (log 38). -/
def removeTile (id : Nat) (s : State) : Answer :=
  match firstFailing [(s.fsc.showLock, .locked), (decide (255 < id), .range)], s.wse.tiles.find id with
  | some st, _ => refuse st s
  | none, none => refuse .noSuch s
  | none, some t => .reply .ok [.u1 id, .u1 t.wall, .u1 t.chain] (takeTile id s)

/-- REMOVE_TILE, R88. -/
def execRemoveTile (tag : Byte) (id : Nat) (s : State) : Result :=
  .next (serve (.removeTile tag id) tag 0x35 (removeTile id) s)

/-- R101: the correction as the request leaves it; an absent field keeps its value and each is clamped from above. -/
def Correction.change (c : Correction) (q : SetCorrectionReq) : Correction where
  gainR := (q.gainR.map (min 8191)).getD c.gainR
  gainG := (q.gainG.map (min 8191)).getD c.gainG
  gainB := (q.gainB.map (min 8191)).getD c.gainB
  offset := (q.offset.map (min 255)).getD c.offset
  clip := (q.clip.map (min 1023)).getD c.clip

/-- R101. The refusals are checked in the order in which the rule names them (log 38). -/
def setCorrection (q : SetCorrectionReq) (s : State) : Answer :=
  match firstFailing [(s.fsc.showLock, .locked), (decide (255 < q.tile), .range)], s.wse.tiles.find q.tile with
  | some st, _ => refuse st s
  | none, none => refuse .noSuch s
  | none, some t =>
    let c := t.correction.change q
    .reply .ok (.u1 q.tile :: c.fields)
      (s.setWse { s.wse with tiles := s.wse.tiles.insert q.tile { t with correction := c } })

/-- SET_CORRECTION, R101. -/
def execSetCorrection (tag : Byte) (q : SetCorrectionReq) (s : State) : Result :=
  .next (serve (.setCorrection tag q) tag 0x36 (setCorrection q) s)

/-! ## Zones, R93, R107 -/

/-- R93: a zone newly defined or redefined. -/
def newZone (wall : Nat) (rect : Rect) : Zone := ⟨wall, rect, 0, 0, 0, 0, none, none, false, false⟩

/-- A zone as it stands, with the zone id before it (R93; log 34): its wall, rectangle and pixel count. -/
def zoneFields (id : Nat) : Option Zone → List Field
  | none => [.u1 id, .none1, .none2, .none2, .none2, .none2, .none4]
  | some z => [.u1 id, .u1 z.wall] ++ rectFields z.rect ++ [.u4 (z.rect.width * z.rect.height)]

def setZones (zones : Table Zone) (s : State) : State := s.setWse { s.wse with zones := zones }

/-- R93. The refusals are checked in the order in which the rule names them (log 38). -/
def defineZone (q : DefineZoneReq) (s : State) : Answer :=
  match firstFailing
      [(s.fsc.showLock, .locked), (decide (7 < q.zone) || !wallOk (q.wall.getD 0), .range)], q.wall with
  | some st, _ => refuse st s
  | none, none => .reply .ok (zoneFields q.zone none) (setZones (s.wse.zones.erase q.zone) s)
  | none, some w =>
    match s.wall w with
    | none => refuse .noSuch s
    | some x =>
      if rectWithin q.rect x.width x.height then
        .reply .ok (zoneFields q.zone (some (newZone w q.rect)))
          (setZones (s.wse.zones.insert q.zone (newZone w q.rect)) s)
      else refuse .range s

/-- DEFINE_ZONE, R93. -/
def execDefineZone (tag : Byte) (q : DefineZoneReq) (s : State) : Result :=
  .next (serve (.defineZone tag q) tag 0x37 (defineZone q) s)

/-- The last averages, or that none exists. -/
def averagesFields : Option Averages → List Field
  | none => [.none2, .none2, .none2, .none2]
  | some a => [.u2 a.r, .u2 a.g, .u2 a.b, .u2 a.y]

/-- R107. The refusals are checked in the order in which the rule names them (log 38). -/
def readZone (id : Nat) (s : State) : Answer :=
  match decide (7 < id), s.wse.zones.find id with
  | true, _ => refuse .range s
  | false, none => refuse .noSuch s
  | false, some z =>
    .reply .ok (zoneFields id (some z) ++ averagesFields z.last ++ [optCounter z.lastFrame, s.counterField]) s

/-- READ_ZONE, R107. -/
def execReadZone (tag : Byte) (id : Nat) (s : State) : Result :=
  .next (serve (.readZone tag id) tag 0x39 (readZone id) s)

/-! ## READ WALL, R94 -/

/-- The admission of each layer in the frame in progress with its visible pixels; no layer before the first frame.
A count, 4 or 0, goes before them (the model's choice: log 23). -/
def admissionFields : Option FrameParams → List Field
  | none => [.u1 0]
  | some f => .u1 4 :: f.layers.toList.flatMap (fun l => [.u1 l.admission.code, .u4 l.visible])

/-- R94. The refusals are checked in the order in which the rule names them (log 38). Every tile goes out, also where the
body passes the 4096 bytes of R174 (the model's choice: log 44). -/
def readWall (w : Nat) (s : State) : Answer :=
  match decide (3 < w), s.wall w with
  | true, _ => refuse .range s
  | false, none => refuse .noSuch s
  | false, some x =>
    let tiles := s.wse.tiles.filter (fun e => decide (e.2.wall = w))
    let zones := s.wse.zones.filter (fun e => decide (e.2.wall = w))
    .reply .ok
      ([.u2 x.width, .u2 x.height, .u1 x.refresh] ++ rgbFields x.background ++ modeFields x.mode x.pattern ++
        pendingFields x.pending ++ [.u1 (boolCode x.clipFlag), .u1 (boolCode x.shedFlag)] ++ s.layersWithHeld w x ++
        .u2 (s.level (brightnessTarget w)) :: heldBrightnessFields x.held ++ admissionFields x.frame ++
        [.u1 (boolCode x.shedding), .u4 s.wse.total] ++
        .u2 tiles.length :: tiles.flatMap (fun e => e.2.fields e.1) ++
        (List.range 8).flatMap (fun c =>
          [.u1 (s.chain c).state.code, .u1 (s.chain c).misses, .u1 (s.chain c).echoes,
            opt1 (chainWall c s.wse.tiles)]) ++
        .u1 zones.length :: zones.flatMap (fun e => .u1 e.1 :: rectFields e.2.rect) ++ [s.counterField]) s

/-- READ_WALL, R94. -/
def execReadWall (tag : Byte) (w : Nat) (s : State) : Result := .next (serve (.readWall tag w) tag 0x38 (readWall w) s)

end Sys2Proof.Machine
end

