-- ==== Sys2Proof/Machine/Dimmer.lean ====
section
/-! DEFINITION. The Dimmer Output Unit, chapter 11: settings, period starts and widths, pulse ends, the work at a frame
boundary, and its requests. -/

namespace Sys2Proof.Machine

/-- Output `o`. -/
def State.dimmer (s : State) (o : Nat) : Dimmer := at_ s.dou.outputs o Dimmer.reset

def putDimmer (o : Nat) (d : Dimmer) (s : State) : State := s.setDou { outputs := put s.dou.outputs o d }

/-- R167: the pulse is active at a tick of the frame in progress: it has started, and its width has not passed. -/
def Dimmer.pulsing (d : Dimmer) (tick : Nat) : Bool := d.active && decide (tick < d.ends)

/-- R167: the level of the pin at a tick of the frame in progress (true is high). -/
def Dimmer.pinHigh (d : Dimmer) (tick : Nat) : Bool :=
  match d.driven with
  | .activeHigh => d.pulsing tick
  | .activeLow => !d.pulsing tick

/-! ## Widths, R166 -/

/-- R166: the width for channel output `level`. -/
def dimmerWidth (level divisor minWidth : Nat) : Nat :=
  let p := periodTicks divisor
  let w := level * p / 65535
  if level = 0 then 0 else if w = 0 ∨ w < minWidth then min minWidth p else w

/-- R165, R166, R167: period `j` starts at tick `t`: width, pulse and its end, and the polarity in force. -/
def Dimmer.start (d : Dimmer) (level j t : Nat) : Dimmer :=
  let w := dimmerWidth level d.setting.divisor d.setting.minWidth
  { d with
    width := w, active := decide (0 < w), driven := d.setting.polarity, period := some j, level := level
    ends := t + w, reached := j :: d.reached }

/-- DIMMER_PERIOD_START, R26, R166: period start `j` of output `o`. A start whose tick the frame has passed, as in the
ticks above 65535, or that has been reached before, is none (log 31). -/
def execDimmerPeriodStart (o j : Nat) (s : State) : Result :=
  let d := s.dimmer o
  let t := periodTick s.cph.phase d.setting.divisor j
  match d.setting.channel with
  | none => .next s
  | some c =>
    if o ≤ 15 ∧ j < d.setting.divisor ∧ s.rtu.tick ≤ t ∧ j ∉ d.reached then
      .next (putDimmer o (d.start (s.channel c).output j t) (moveTick t s))
    else .next s

/-- DIMMER_PULSE_END, R167: the pulse of output `o` has lasted its width, at a tick of the frame in progress. One that
runs on past the frame's last tick does not end in it. -/
def execDimmerPulseEnd (o : Nat) (s : State) : Result :=
  let d := s.dimmer o
  if d.active = true ∧ d.ends < s.rtu.endTick then .next (putDimmer o { d with active := false } (moveTick d.ends s))
  else .next s

/-! ## The work at a boundary, R165, R167, R168 -/

/-- R168: the period in progress is cut. -/
def Dimmer.cut (d : Dimmer) : Dimmer := { d with active := false, period := none }

/-- R167: the 65536 ticks of a frame have passed: a pulse whose width reaches further goes on in the next one. -/
def Dimmer.carry (d : Dimmer) : Dimmer := { d with active := d.pulsing 65536, ends := d.ends - 65536 }

/-- R165, R167: a pending setting comes into force. The pin keeps the old polarity until the first period start where a
period was in progress (`inPeriod`) and the output keeps a channel, also where the boundary cuts that period (R168; the
model's choice: log 45). Otherwise it takes the new polarity at once. -/
def Dimmer.apply (inPeriod : Bool) (d : Dimmer) : Dimmer :=
  match d.pending with
  | none => d
  | some n =>
    let d1 := { d with
      setting := n, pending := none
      driven := if inPeriod = false ∨ n.channel = none then n.polarity else d.driven }
    if n.channel = none then { d1 with active := false, width := 0, period := none } else d1

/-- R165, R167, R168: one output at a boundary. -/
def Dimmer.atBoundary (cut : Bool) (d : Dimmer) : Dimmer :=
  { (if cut then d.cut else d.carry).apply d.period.isSome with reached := [] }

/-- The unit's work at a boundary; `cut` says whether it ends a slip frame whose slip is not 0. -/
def douAtBoundary (cut : Bool) (s : State) : State :=
  s.setDou { outputs := mapNum (fun _ d => d.atBoundary cut) s.dou.outputs }

/-! ## Requests -/

/-- R165: the setting that the request leaves pending, if every code names a value. -/
def DimmerSetting.change (d : DimmerSetting) (q : SetDimmerReq) : Option DimmerSetting :=
  let channel := q.channel.getD d.channel
  match decide (767 < channel.getD 0), keepOr d.polarity DimmerPolarity.ofCode q.polarity with
  | false, some p =>
    some ⟨channel, (q.divisor.map (clamp 1 64)).getD d.divisor, (q.minWidth.map (min 1023)).getD d.minWidth, p⟩
  | _, _ => none

def DimmerSetting.fields (d : DimmerSetting) : List Field :=
  [opt2 d.channel, .u2 d.divisor, .u2 d.minWidth, .u1 d.polarity.code]

/-- A pending setting, or none. -/
def pendingSettingFields : Option DimmerSetting → List Field
  | none => [.u1 0]
  | some d => .u1 1 :: d.fields

/-- R165. The refusals are checked in the order in which the rule names them (log 38). -/
def setDimmer (q : SetDimmerReq) (s : State) : Answer :=
  let d := s.dimmer q.output
  match firstFailing [(s.fsc.showLock, .locked), (decide (15 < q.output), .range)], (d.pending.getD d.setting).change
    q with
  | some st, _ => refuse st s
  | none, none => refuse .range s
  | none, some n =>
    .reply .ok (d.setting.fields ++ pendingSettingFields (some n)) (putDimmer q.output { d with pending := some n } s)

/-- SET_DIMMER, R165. -/
def execSetDimmer (tag : Byte) (q : SetDimmerReq) (s : State) : Result :=
  .next (serve (.setDimmer tag q) tag 0x70 (setDimmer q) s)

/-- An output as READ DIMMER reports it at a tick of the frame in progress (R169). -/
def Dimmer.fields (d : Dimmer) (tick : Nat) : List Field :=
  d.setting.fields ++ pendingSettingFields d.pending ++
    [.u4 (periodTicks d.setting.divisor), .u4 d.width, opt1 d.period, .u1 (boolCode (d.pulsing tick)), .u2 d.level]

/-- R169. -/
def readDimmer (output : Option Nat) (s : State) : Answer :=
  let named := match output with
    | some o => [o]
    | none => List.range 16
  checked [(decide (15 < output.getD 0), .range)] s
    (.reply .ok
      (.u1 named.length :: named.flatMap (fun o => (s.dimmer o).fields s.rtu.tick) ++ [s.counterField, .u2 s.cph.phase])
      s)

/-- READ_DIMMER, R169. -/
def execReadDimmer (tag : Byte) (output : Option Nat) (s : State) : Result :=
  .next (serve (.readDimmer tag output) tag 0x71 (readDimmer output) s)

end Sys2Proof.Machine
end

