-- ==== Sys2Proof/Machine/Timing.lean ====
section
/-! DEFINITION. The Reference Timing Unit, chapter 1: standards, the clock and the ticks, the generator's entries into
its states, and the requests SET REFERENCE and READ TIMING. The pulses and the frame boundary are in Boundary.lean. -/

namespace Sys2Proof.Machine

/-! ## Standards, R3 -/

/-- Nominal period in ns (R3). -/
def Standard.nominal : Standard → Nat
  | .fps23976 => 41708333
  | .fps24 => 41666666
  | .fps25 => 40000000
  | .fps2997 => 33366666
  | .fps30 => 33333333
  | .fps50 => 20000000
  | .fps5994 => 16683333
  | .fps60 => 16666666

/-- Tolerance: the nominal period divided by 50, rounded down (R3). -/
def Standard.tolerance (st : Standard) : Nat := st.nominal / 50

/-- A measured period within tolerance (R3). -/
def Standard.accepts (st : Standard) (p : Nat) : Bool :=
  decide (st.nominal - st.tolerance ≤ p) && decide (p ≤ st.nominal + st.tolerance)

/-! ## Clock and ticks, R4, R10, R12 (log 4) -/

/-- Tick position at moment `t`: ticks are paced at the current period from the base moment. -/
def Rtu.tickAt (r : Rtu) (t : Nat) : Nat := r.tickBase + (t - r.baseTime) * 65536 / r.period

/-- Time passes to moment `t`: the last tick of a frame lasts until the frame ends (R4), and the tick position never
goes back within a frame. Where a generated boundary falls at `t` too and has not been taken, the tick is the last one,
65535 (log 37). -/
def Rtu.advance (r : Rtu) (t : Nat) : Rtu :=
  let r' := { r with now := max r.now t }
  { r' with tick := max r.tick (min (r.endTick - 1) (r'.tickAt r'.now)) }

/-- The expected end of the frame in progress (R12). -/
def Rtu.expectedEnd (r : Rtu) : Nat := r.baseTime + (r.endTick - r.tickBase) * r.period / 65536

/-- The late limit: the current period divided by 16, rounded down, after the expected end (R12). -/
def Rtu.lateTime (r : Rtu) : Nat := r.expectedEnd + r.period / 16

/-- A start at `t` comes before the early bound: more than 4096 ticks before the expected end (R12). -/
def Rtu.early (r : Rtu) (t : Nat) : Bool := decide (r.tickAt t + 4096 < r.endTick)

/-- A frame boundary at moment `t`: the counter increases by 1, wrapping, and a frame of 65536 ticks begins (R5). -/
def Rtu.beginFrame (r : Rtu) (t : Nat) : Rtu :=
  { r with
    counter := r.counter + 1
    now := max r.now t
    baseTime := max r.now t
    tickBase := 0
    endTick := 65536
    tick := 0
    slip := none }

/-! ## Entries into the generator states -/

/-- R15: enter a state, with REFERENCE_STATE carrying previous state, new state, cause and the period after it. -/
def enterGen (new : GenState) (cause : RefCause) (s : State) : State :=
  raise .referenceState [.u2 s.rtu.gen.code, .u2 new.code, .u2 cause.code, .u4 s.rtu.period]
    (s.setRtu { s.rtu with gen := new })

/-- R6, R14, R16: enter ACQUIRING. `started` says whether the reference frame start that enters it is its first. -/
def enterAcquiring (origin : AcqOrigin) (started : Bool) (cause : RefCause) (s : State) : State :=
  enterGen .acquiring cause
    (s.setRtu { s.rtu with
      acqCount := 0, acqOrigin := origin, warned := false, gapCount := 0, acqStarted := started, acqPrev := none })

/-- Enter HOLDOVER: the current period stays and the holdover count starts at 0 (R12, R13). -/
def enterHoldover (cause : RefCause) (s : State) : State :=
  enterGen .holdover cause (s.setRtu { s.rtu with holdoverCount := 0 })

/-- Enter FREERUN at a boundary: the current period becomes the nominal period (R6, R9, R14). -/
def enterFreerun (cause : RefCause) (s : State) : State :=
  enterGen .freerun cause (s.setRtu { s.rtu with period := s.rtu.standard.nominal, holdoverCount := 0, acqCount := 0 })

/-- R11: the boundary that ends a slip frame. -/
def endSlip (slip : Int) (length : Nat) (s : State) : State :=
  raise .frameSlip [.i2 slip, .u2 length, .u4 s.rtu.period] (s.setRtu { s.rtu with lastSlip := slip })

/-! ## Per-frame work of the generator outside LOCKED, R6, R9, R14 -/

/-- R9: the holdover count keeps running in ACQUIRING while the origin is HOLDOVER; at the limit the origin becomes
FREERUN and the period nominal. The count stays at the limit from then on (the model's choice: log 20). -/
def Rtu.acquiringHoldover (r : Rtu) : Rtu :=
  match r.acqOrigin with
  | .freerun => r
  | .holdover =>
    if r.holdoverLimit ≤ r.holdoverCount + 1 then
      { r with holdoverCount := r.holdoverCount + 1, acqOrigin := .freerun, period := r.standard.nominal }
    else { r with holdoverCount := r.holdoverCount + 1 }

/-- R9: ACQUIRING is abandoned to its origin. -/
def abandonAcquisition (s : State) : State :=
  match s.rtu.acqOrigin with
  | .freerun => enterFreerun .abandoned s
  | .holdover => enterGen .holdover .abandoned (s.setRtu { s.rtu with acqCount := 0 })

/-- What the generator does at a frame boundary that the tick count brings. -/
def genAtBoundary (s : State) : State :=
  match s.rtu.gen with
  | .freerun => s.setRtu { s.rtu with period := s.rtu.standard.nominal }
  | .holdover =>
    if s.rtu.holdoverLimit ≤ s.rtu.holdoverCount + 1 then enterFreerun .holdoverExpired s
    else s.setRtu { s.rtu with holdoverCount := s.rtu.holdoverCount + 1 }
  | .acquiring =>
    let r := s.rtu.acquiringHoldover
    let s' := s.setRtu { r with gapCount := r.gapCount + 1 }
    if 4 ≤ r.gapCount + 1 then abandonAcquisition s' else s'
  | .locked => s

/-! ## Reference frame starts, R1, R2, R7, R8 -/

/-- R1: whether a frame pulse is a reference frame start. A quarter of the line period is taken exactly, with no rounding
(the model's choice: log 42). -/
def Rtu.qualifies (r : Rtu) (p : FramePulse) : Bool :=
  match r.fieldMode with
  | .progressive => true
  | .fieldLine =>
    match r.polarity with
    | .normal => p.fieldHigh
    | .inverted => !p.fieldHigh
  | .pulsePhase =>
    match r.lastLine, r.linePeriod with
    | some line, some period =>
      decide (4 * (p.time - line) < period) ||
        (match p.lineAfter with
         | some d => decide (4 * d < period)
         | none => false)
    | _, _ => false

/-- R2: the period measured at a start at moment `t`, 0 when no previous start is held. -/
def Rtu.measured (r : Rtu) (t : Nat) : Nat :=
  match r.prevStart with
  | some prev => t - prev
  | none => 0

/-- R2: measure a start. -/
def Rtu.measure (r : Rtu) (t : Nat) : Rtu := { r with lastMeasured := r.measured t, prevStart := some t }

/-- R7: P differs from the previous period by no more than that period divided by 1024, rounded down. -/
def closeTo (p prev : Nat) : Bool := decide (prev - prev / 1024 ≤ p) && decide (p ≤ prev + prev / 1024)

/-- R7: the acquisition count after a measured period. -/
def Rtu.countAfter (r : Rtu) (p : Nat) : Nat :=
  if !r.standard.accepts p then 0
  else if r.acqCount = 0 then 1
  else
    match r.acqPrev with
    | some prev => if closeTo p prev then r.acqCount + 1 else 1
    | none => 1

/-- R8: the first out-of-tolerance period of an acquisition. -/
def warnStandard (p : Nat) (s : State) : State :=
  if s.rtu.standard.accepts p || s.rtu.warned then s
  else
    raise .wrongStandard [.u4 p, .u2 s.rtu.standard.code, .u2 s.rtu.fieldMode.code]
      (s.setRtu { s.rtu with warned := true })

/-! ## SET REFERENCE, R16 -/

/-- The settings as the request leaves them, if every code names a value. -/
def Rtu.newSettings (r : Rtu) (q : SetReferenceReq) : Option Rtu :=
  match keepOr r.mode RefMode.ofCode q.mode, keepOr r.standard Standard.ofCode q.standard,
    keepOr r.fieldMode FieldMode.ofCode q.fieldMode, keepOr r.polarity FieldPolarity.ofCode q.polarity with
  | some m, some st, some f, some p =>
    some { r with
      mode := m, standard := st, fieldMode := f, polarity := p,
      holdoverLimit := match q.limit with
        | none => r.holdoverLimit
        | some n => clamp 1 250 n }
  | _, _, _, _ => none

/-- The five settings as a reply carries them. -/
def Rtu.settingFields (r : Rtu) : List Field :=
  [.u1 r.mode.code, .u1 r.standard.code, .u1 r.fieldMode.code, .u1 r.polarity.code, .u2 r.holdoverLimit]

/-- R16: the re-entry that a change of mode, standard or field mode makes; the current period is kept. -/
def reenter (s : State) : State :=
  match s.rtu.mode with
  | .free => enterGen .freerun .settings (s.setRtu { s.rtu with acqCount := 0, holdoverCount := 0 })
  | .lock => enterAcquiring .freerun false .settings (s.setRtu { s.rtu with holdoverCount := 0 })

/-- R16. The refusals are checked in the order in which the rule names them (log 38). -/
def setReference (q : SetReferenceReq) (s : State) : Answer :=
  match s.fsc.showLock, s.rtu.newSettings q with
  | true, _ => refuse .locked s
  | false, none => refuse .range s
  | false, some r =>
    let fieldChanged := decide (r.fieldMode ≠ s.rtu.fieldMode)
    let changed := decide (r.mode ≠ s.rtu.mode) || decide (r.standard ≠ s.rtu.standard) || fieldChanged
    let s1 := s.setRtu { r with prevStart := if fieldChanged then none else r.prevStart }
    .reply .ok r.settingFields (if changed then reenter s1 else s1)

/-- SET_REFERENCE, R16. -/
def execSetReference (tag : Byte) (q : SetReferenceReq) (s : State) : Result :=
  .next (serve (.setReference tag q) tag 0x10 (setReference q) s)

/-- R17. A last measured period above 4294967295 ns goes out as its low 32 bits (the model's choice: log 34). -/
def readTiming (s : State) : Answer :=
  let r := s.rtu
  .reply .ok
    (r.settingFields ++
      [.u1 r.gen.code, s.counterField, .u4 r.tick, .u4 r.period, .u4 r.lastMeasured, .i2 r.lastSlip, .u1 r.acqCount,
        .u1 r.acqOrigin.code, .u1 r.holdoverCount, .u1 (boolCode r.warned)]) s

/-- READ_TIMING, R17. -/
def execReadTiming (tag : Byte) (s : State) : Result := .next (serve (.readTiming tag) tag 0x11 readTiming s)

/-- LINE_PULSE, R1: the interval of the two most recent line pulses is the line period of PULSE_PHASE. -/
def execLinePulse (time : Nat) (s : State) : Result :=
  .next (s.setRtu { s.rtu.advance time with
    lastLine := some time
    linePeriod := match s.rtu.lastLine with
      | some prev => some (time - prev)
      | none => none })

end Sys2Proof.Machine
end

