-- ==== Sys2Proof/Machine/Boundary.lean ====
section
/-! DEFINITION. The frame boundary: what every block does at it (R5), the events that bring one (FRAME_BOUNDARY,
FRAME_PULSE, LATE_LIMIT), and the boundaries at which something in particular happens (log 1). -/

namespace Sys2Proof.Machine

/-! ## The wall scan engine at a boundary -/

/-- R83, R85: the wall enters FREEZE, leaves it, or neither. -/
def Wall.entersFreeze (x : Wall) : Bool :=
  match x.pending with
  | some (m, _) => decide (m = .freeze) && decide (x.mode ≠ .freeze)
  | none => false

def Wall.leavesFreeze (x : Wall) : Bool :=
  match x.pending with
  | some (m, _) => decide (m ≠ .freeze) && decide (x.mode = .freeze)
  | none => false

/-- R83: the pending mode becomes the wall's mode; the pattern counts for TEST. -/
def Wall.applyPending (x : Wall) : Wall :=
  match x.pending with
  | none => x
  | some (m, p) => { x with mode := m, pattern := if m = .test then p else x.pattern, pending := none }

/-- The live buffer that a layer of a wall not frozen latches (R73). -/
def State.newestFor (s : State) (source : Option Nat) : Option Nat :=
  if source.isSome && decide (source = s.lip.bound) then s.lip.newest else none

/-- R85: what a wall that enters FREEZE holds. -/
def State.heldOf (s : State) (w : Nat) (x : Wall) : Held where
  layers := mapNum (fun i l => ⟨l, s.level (opacityTarget w (i + 1)), s.newestFor l.source⟩) x.layers
  brightness := s.level (brightnessTarget w)

/-- R73: latch the four layers of a wall with one kind; the newest shown. -/
def latchWall (w : Nat) (kind : LatchKind) (x : Wall) (s : State) : State :=
  let entry (i : Nat) : Option Latch := (s.newestFor (x.layer (i % 4 + 1)).source).map (fun b => ⟨b, kind⟩)
  s.setLip { s.lip with
    latch := mapNum (fun i e => if i / 4 = w then entry i else e) s.lip.latch
    shown := s.lip.shown || x.layers.toList.any (fun l => (s.newestFor l.source).isSome) }

/-- R73, R83, R85: the mode, held parameters and latches of one wall for the frame that begins. -/
def settleMode (w : Nat) (s : State) : State :=
  match s.wall w with
  | none => s
  | some x =>
    if x.entersFreeze then
      latchWall w .held x
        (x.layers.toList.foldl (fun t l => airUp l.source t)
          (modWall w (fun _ => { x.applyPending with held := some (s.heldOf w x) }) s))
    else if x.leavesFreeze then
      latchWall w .frame x (releaseHeld x.held (modWall w (fun _ => { x.applyPending with held := none }) s))
    else
      let s1 := modWall w (fun _ => x.applyPending) s
      if x.mode = .freeze then s1 else latchWall w .frame x s1

/-- The part of `start`..`start + length − 1` that lies in 0..`limit` − 1, as a count. -/
def overlap (start : Int) (length limit : Nat) : Nat := (min (start + length) limit - max start 0).toNat

/-- R79: the visible pixels of a layer on a wall. -/
def visiblePixels (x : Wall) (l : Layer) : Nat :=
  overlap l.px l.rect.width x.width * overlap l.py l.rect.height x.height

/-- R81: a layer's frame parameters, not yet admitted. -/
def State.frameLayer (s : State) (w : Nat) (x : Wall) (layer : Nat) : FrameLayer :=
  let p : Layer × Nat := match x.held with
    | some h => ((at_ h.layers (layer - 1) default).layer, (at_ h.layers (layer - 1) default).opacity)
    | none => (x.layer layer, s.level (opacityTarget w layer))
  { layer := p.1, opacity := p.2, buffer := s.latched w layer, region := p.1.source.bind s.region,
    visible := visiblePixels x p.1, admission := .inactive }

/-- R81: a wall's frame parameters, with no layer admitted yet. -/
def State.frameParams (s : State) (w : Nat) (x : Wall) : FrameParams where
  mode := x.mode
  pattern := x.pattern
  layers := #v[s.frameLayer w x 1, s.frameLayer w x 2, s.frameLayer w x 3, s.frameLayer w x 4]
  brightness := match x.held with
    | some h => h.brightness
    | none => s.level (brightnessTarget w)

/-- R79: the layer is active for the frame. -/
def FrameLayer.isActive (l : FrameLayer) : Bool := l.layer.source.isSome && decide (0 < l.opacity)

/-- The pixel passes of a frame (R91). -/
def passLimit : Nat := 16777216

/-- R91: the outcome for a layer, and the running total after it (log 36). -/
def admitLayer (total : Nat) (lowerShed : Bool) (l : FrameLayer) : Nat × Admission :=
  if lowerShed then (total, .shed)
  else if !l.isActive then (total, .inactive)
  else if total + l.visible ≤ passLimit then (total + l.visible, .admitted)
  else (total, .shed)

/-- R91: whether the layer below layer 1..4 was shed. -/
def FrameParams.lowerShed (f : FrameParams) (layer : Nat) : Bool :=
  decide (1 < layer) && decide ((at_ f.layers (layer - 2) FrameLayer.none_).admission = .shed)

/-- R91: the given layer of every wall, in the order of the walls. -/
def admitAcross (layer : Nat) : Nat → Table Wall → Nat × Table Wall
  | total, [] => (total, [])
  | total, (w, x) :: rest =>
    match x.frame with
    | none =>
      let r := admitAcross layer total rest
      (r.1, (w, x) :: r.2)
    | some f =>
      let l := at_ f.layers (layer - 1) FrameLayer.none_
      let a := admitLayer total (f.lowerShed layer) l
      let r := admitAcross layer a.1 rest
      (r.1, (w, { x with frame := some { f with layers := put f.layers (layer - 1) { l with admission := a.2 } } }) ::
        r.2)

/-- R91: the admission, from the sum of the base passes. -/
def admitAll (total : Nat) (walls : Table Wall) : Nat × Table Wall :=
  [1, 2, 3, 4].foldl (fun a layer => admitAcross layer a.1 a.2) (total, walls)

/-- R81, R91: settle the frame parameters of every wall and make the admission. -/
def settleFrames (s : State) : State :=
  let walls := s.wse.walls.map (fun e => (e.1, { e.2 with frame := some (s.frameParams e.1 e.2), picture := [], reached := [] }))
  let a := admitAll s.areas walls
  s.setWse { s.wse with walls := a.2, total := a.1 }

/-- The shed layers of a wall, by number. -/
def Wall.shedLayers (x : Wall) : List Nat :=
  match x.frame with
  | none => []
  | some f => [1, 2, 3, 4].filter (fun l => decide ((at_ f.layers (l - 1) FrameLayer.none_).admission = .shed))

/-- R92: shedding, the SHED flag and LOAD_SHED of one wall. -/
def settleShedding (w : Nat) (s : State) : State :=
  match s.wall w with
  | none => s
  | some x =>
    let s1 := modWall w (fun y => y.setShed (!x.shedLayers.isEmpty)) s
    match x.shedding, x.shedLayers with
    | false, lowest :: more => raise .loadShed [.u2 w, .u2 lowest, .u2 (more.length + 1), .u2 s.wse.total] s1
    | _, _ => s1

/-- R90: the frame now ending is echoed. -/
def Chain.echoed (c : Chain) : Bool :=
  match c.sent with
  | none => false
  | some w => decide (c.returned = [w])

/-- R90: judge one chain on the frame now ending. -/
def judgeChain (c : Nat) (s : State) : State :=
  let x := s.chain c
  if x.whole then
    match x.state, x.echoed with
    | .ok, true => putChain c { x with misses := 0 } s
    | .ok, false =>
      if 3 ≤ x.misses + 1 then enterChain c .fault (chainWall c s.wse.tiles) s
      else putChain c { x with misses := x.misses + 1 } s
    | .fault, false => putChain c { x with echoes := 0 } s
    | .fault, true =>
      if 3 ≤ x.echoes + 1 then enterChain c .ok (chainWall c s.wse.tiles) s
      else putChain c { x with echoes := x.echoes + 1 } s
    | .idle, _ => s
  else s

/-- R89, R90: a chain at the start of a frame. -/
def Chain.beginFrame (free : Bool) (x : Chain) : Chain :=
  { x with
    whole := decide (x.state ≠ .idle), sent := none, returned := [], out := if free then [] else x.out }

/-- R105: a zone at the start of a frame. -/
def Zone.beginFrame (z : Zone) : Zone :=
  { z with sumR := 0, sumG := 0, sumB := 0, taken := 0, measuring := true, raised := false }

/-- R87, R90, R105: the tile map, chains and zones of the frame that begins. -/
def beginSending (s : State) : State :=
  s.setWse { s.wse with
    frameTiles := s.wse.tiles
    chains := mapNum (fun c x => x.beginFrame (decide (tileCount c s.wse.tiles = 0))) s.wse.chains
    zones := s.wse.zones.mapAll Zone.beginFrame }

/-- The engine's work at a boundary. The LOAD_SHED of the walls come before the CHAIN_STATE of the chains, each in
rising order (log 18). -/
def wseAtBoundary (s : State) : State :=
  let s1 := (List.range 4).foldl (fun t w => settleMode w t) s
  let s2 := (List.range 4).foldl (fun t w => settleShedding w t) (settleFrames s1)
  beginSending ((List.range 8).foldl (fun t c => judgeChain c t) s2)

/-! ## The whole boundary, R5 -/

/-- R106: the zone-complete events of a frame fall before the boundary that ends it, those due at once by zone number
(the model's choice: log 18). -/
def completeZones (s : State) : State := s.wse.zones.ids.foldl (fun t z => completeZone z t) s

/-- What every block does at a boundary after the RTU has begun the frame (order of the blocks: log 18). -/
def blocksAtBoundary (lines : BitVec 8) (cut : Bool) (s : State) : State :=
  let s1 := cphAtBoundary lines s
  let s2 := liveAtBoundary (cueAtBoundary (tallyRises s.cph s1.cph) s1)
  douAtBoundary cut (fbcAtBoundary (wseAtBoundary s2))

/-- R5: a frame boundary at moment `t`. `gen` is what the generator does at it. -/
def takeBoundary (t : Nat) (lines : BitVec 8) (cut : Bool) (gen : State → State) (s : State) : State :=
  let s1 := completeZones s
  blocksAtBoundary lines cut (gen (s1.setRtu (s1.rtu.beginFrame t)))

/-- R11: the boundary ends a lengthened slip frame, also after SET REFERENCE (log 19). FRAME_SLIP is queued after a
REFERENCE_STATE of the same boundary (log 18). -/
def endLengthened (slip : Option Nat) (s : State) : State :=
  match slip with
  | none => s
  | some k => endSlip k (65536 + k) s

/-- The boundary that the tick count brings in FREERUN, ACQUIRING and HOLDOVER (R4, R6, R9, R14). -/
def tickBoundary (lines : BitVec 8) (s : State) : State :=
  takeBoundary s.rtu.expectedEnd lines s.rtu.slip.isSome (fun t => endLengthened s.rtu.slip (genAtBoundary t)) s

/-- The tick count brings the next boundary: not in LOCKED (R4). -/
def State.ticking (s : State) : Bool := decide (s.rtu.gen ≠ .locked)

/-- FRAME_BOUNDARY, R4, R5. -/
def execFrameBoundary (lines : BitVec 8) (s : State) : Result :=
  if s.ticking then .next (tickBoundary lines s) else .next s

/-! ## Boundaries at which something in particular happens (log 1) -/

/-- The boundary, if the tick count brings it and `due` says that the thing happens at it. -/
def boundaryWhen (due : Bool) (lines : BitVec 8) (s : State) : State :=
  if s.ticking && due then tickBoundary lines s else s

/-- The holdover count reaches the limit at the coming boundary (R9, R14). -/
def Rtu.holdoverEnds (r : Rtu) : Bool :=
  decide (r.holdoverLimit ≤ r.holdoverCount + 1) &&
    (decide (r.gen = .holdover) || (decide (r.gen = .acquiring) && decide (r.acqOrigin = .holdover)))

/-- ACQUISITION_ABANDONED, R9. -/
def execAcquisitionAbandoned (lines : BitVec 8) (s : State) : Result :=
  .next (boundaryWhen (decide (s.rtu.gen = .acquiring) && decide (4 ≤ s.rtu.gapCount + 1)) lines s)

/-- HOLDOVER_EXPIRED, R9, R14. -/
def execHoldoverExpired (lines : BitVec 8) (s : State) : Result := .next (boundaryWhen s.rtu.holdoverEnds lines s)

/-- WAIT_ENTRY_DUE, R118. -/
def execWaitEntryDue (lines : BitVec 8) (s : State) : Result :=
  .next (boundaryWhen (!(dueEntries s.cue.advance s.cue.waits).isEmpty) lines s)

/-- R119: the follow timer expires at the coming boundary. -/
def CueEngine.followExpires (c : CueEngine) : Bool :=
  decide (c.pending = none) && decide (0 < c.advance) &&
    (match c.follow with
     | some f => decide (f.remaining ≤ c.advance)
     | none => false)

/-- FOLLOW_EXPIRY, R119. -/
def execFollowExpiry (lines : BitVec 8) (s : State) : Result := .next (boundaryWhen s.cue.followExpires lines s)

/-- R134: the fade of a target ends at the coming boundary. -/
def State.fadeEnds (s : State) (target : Nat) : Bool :=
  decide (0 < s.cue.advance) &&
    (match s.lvp.fades.find target with
     | some f => decide (f.duration ≤ f.elapsed + s.cue.advance)
     | none => false)

/-- FADE_END, R134. -/
def execFadeEnd (target : Nat) (lines : BitVec 8) (s : State) : Result :=
  .next (boundaryWhen (s.fadeEnds target) lines s)

/-- FEED_LOST, R70. -/
def execFeedLost (lines : BitVec 8) (s : State) : Result :=
  .next (boundaryWhen (decide (s.lip.port = .running) && decide (s.lip.silence = 3)) lines s)

/-- R159: the keep-alive countdown of a fixture reaches 0 at the coming boundary. -/
def State.keepAliveEnds (s : State) (id : Nat) : Bool :=
  match s.fbc.fixtures.find id with
  | some f => decide (f.countdown ≤ 1)
  | none => false

/-- KEEP_ALIVE_EXPIRY, R159. -/
def execKeepAliveExpiry (id : Nat) (lines : BitVec 8) (s : State) : Result :=
  .next (boundaryWhen (s.keepAliveEnds id) lines s)

/-- R159: the silence count of a fixture reaches its limit at the coming boundary. -/
def State.silenceEnds (s : State) (id : Nat) : Bool :=
  match s.fbc.fixtures.find id with
  | some f => decide (0 < f.silenceLimit) && decide (f.state ≠ .silent) && decide (f.silenceLimit ≤ f.silence + 1)
  | none => false

/-- SILENCE_LIMIT, R159. -/
def execSilenceLimit (id : Nat) (lines : BitVec 8) (s : State) : Result :=
  .next (boundaryWhen (s.silenceEnds id) lines s)

/-! ## The late limit, R13 -/

/-- R13: the late limit passes in LOCKED. Where this ends a lengthened slip frame, REFERENCE_STATE is queued before
FRAME_SLIP (the model's choice: log 18). -/
def lateBoundary (lines : BitVec 8) (s : State) : State :=
  takeBoundary s.rtu.lateTime lines s.rtu.slip.isSome
    (fun t => endLengthened s.rtu.slip (enterHoldover .late t)) s

/-- LATE_LIMIT, R13. -/
def execLateLimit (lines : BitVec 8) (s : State) : Result :=
  if s.rtu.gen = .locked then .next (lateBoundary lines s) else .next s

/-! ## Reference frame starts, R6 to R14 -/

/-- R10: LOCKED is entered at a start at moment `t` whose measured period is `p`. -/
def enterLocked (t p : Nat) (s : State) : State :=
  enterGen .locked .acquired
    (s.setRtu { s.rtu with period := p, acqCount := 0, holdoverCount := 0, onTime := t })

/-- R10, R11: LOCKED is entered and the frame realigned, by the tick position at entry. -/
def lock (t p : Nat) (lines : BitVec 8) (s : State) : State :=
  let tick := s.rtu.tick
  if tick = 0 then
    endSlip 0 65536 (enterLocked t p (s.setRtu { s.rtu with baseTime := t, tickBase := 0 }))
  else if 32768 ≤ tick then
    takeBoundary t lines true (fun u => endSlip ((tick : Int) - 65536) tick (enterLocked t p u)) s
  else
    enterLocked t p
      (s.setRtu { s.rtu with baseTime := t, tickBase := tick, endTick := 65536 + tick, slip := some tick })

/-- R7 to R10: a start in ACQUIRING, the period `p` measured at it. -/
def acquire (t p : Nat) (lines : BitVec 8) (s : State) : State :=
  if s.rtu.acqStarted then
    let count := s.rtu.countAfter p
    let s1 := warnStandard p (s.setRtu { s.rtu with acqCount := count, acqPrev := some p, gapCount := 0 })
    if 8 ≤ count then lock t p lines s1 else s1
  else s.setRtu { s.rtu with acqStarted := true, gapCount := 0 }

/-- R12: an on-time start: the generator's part of the boundary. -/
def onTimeStart (t : Nat) (s : State) : State :=
  let p := t - s.rtu.onTime
  if s.rtu.standard.accepts p then s.setRtu { s.rtu with period := p, onTime := t }
  else enterHoldover .outOfTolerance (s.setRtu { s.rtu with onTime := t })

/-- A reference frame start at moment `t`, measured (R2) and acted on by the generator state. -/
def referenceStart (t : Nat) (lines : BitVec 8) (s : State) : State :=
  let p := s.rtu.measured t
  let s1 := s.setRtu (s.rtu.measure t)
  match s.rtu.gen with
  | .freerun =>
    if s.rtu.mode = .lock then enterAcquiring .freerun true .referenceSeen s1 else s1
  | .holdover =>
    if s.rtu.mode = .lock then enterAcquiring .holdover true .referenceSeen s1 else s1
  | .acquiring => acquire t p lines s1
  | .locked =>
    if s.rtu.early t then s1
    else
      takeBoundary t lines s.rtu.slip.isSome (fun u => endLengthened s.rtu.slip (onTimeStart t u)) s1

/-- FRAME_PULSE, R1 to R14. A pulse that comes after the late limit in LOCKED finds the generator in HOLDOVER (log
32). -/
def execFramePulse (p : FramePulse) (s : State) : Result :=
  let s1 := if s.rtu.gen = .locked ∧ s.rtu.lateTime < p.time then lateBoundary p.tally s else s
  let s2 := setLines p.tally (s1.setRtu (s1.rtu.advance p.time))
  if s2.rtu.qualifies p then .next (referenceStart p.time p.tally s2) else .next s2

end Sys2Proof.Machine
end

