-- ==== Sys2Proof/Machine/Formats.lean ====
section
/-! DEFINITION. The formats of chapter 12: request bodies read and written, fields of replies and notices as bytes, and
Control Link frames. Layouts that the chapter leaves to its general rules are listed in log 23, 24 and 34. -/

namespace Sys2Proof.Machine

/-! ## Numbers in a body -/

def n2 (b1 b0 : Byte) : Nat := b1.toNat * 256 + b0.toNat
def n3 (b2 b1 b0 : Byte) : Nat := b2.toNat * 65536 + b1.toNat * 256 + b0.toNat
def n4 (b3 b2 b1 b0 : Byte) : Nat := b3.toNat * 16777216 + b2.toNat * 65536 + b1.toNat * 256 + b0.toNat

/-- A signed 2-byte field. -/
def z2 (b1 b0 : Byte) : Int := signed16 (n2 b1 b0)

/-- A 1-byte field in which 0xFF codes NONE or ALL. -/
def none1 (b : Byte) : Option Nat := if b.toNat = 255 then none else some b.toNat

/-- A 2-byte field in which 0xFFFF codes NONE. -/
def none2 (n : Nat) : Option Nat := if n = 65535 then none else some n

/-- An optional field: bit `i` of the presence byte says whether it is present. -/
def present {α : Type} (presence : Byte) (i : Nat) (x : α) : Option α := if presence.toNat.testBit i then some x else
    none

/-- A pixel word, high byte first. -/
def pixelWord (b3 b2 b1 b0 : Byte) : Word := b3 ++ b2 ++ b1 ++ b0

/-- The pixels of WRITE CONTENT, 4 bytes each, if they are whole. -/
def pixelsOf : List Byte → Option (List Word)
  | [] => some []
  | a :: b :: c :: d :: rest => (pixelsOf rest).map (fun l => pixelWord a b c d :: l)
  | _ => none

/-- Numbers of 2 bytes each, if they are whole. -/
def numbersOf : List Byte → Option (List Nat)
  | [] => some []
  | a :: b :: rest => (numbersOf rest).map (fun l => n2 a b :: l)
  | _ => none

/-! ## STORE CUE actions -/

/-- The fields of an action of kind `kind` and the bytes after it; none where the bytes end early. A kind code that
names no kind takes every byte that is left (log 25). -/
def readAction (kind : Byte) (bytes : List Byte) : Option (RawAction × List Byte) :=
  match kind.toNat, bytes with
  | 0, w1 :: w0 :: l1 :: l0 :: s1 :: s0 :: x1 :: x0 :: y1 :: y0 :: a1 :: a0 :: h1 :: h0 :: p1 :: p0 :: q1 :: q0 ::
    rest =>
    some (.layerSource (n2 w1 w0) (n2 l1 l0) (none2 (n2 s1 s0)) ⟨n2 x1 x0, n2 y1 y0, n2 a1 a0, n2 h1 h0⟩ (z2 p1 p0)
      (z2 q1 q0), rest)
  | 1, w1 :: w0 :: l1 :: l0 :: v1 :: v0 :: d1 :: d0 :: c1 :: c0 :: rest =>
    some (.layerFade (n2 w1 w0) (n2 l1 l0) (n2 v1 v0) (n2 d1 d0) (n2 c1 c0), rest)
  | 2, w1 :: w0 :: v1 :: v0 :: d1 :: d0 :: c1 :: c0 :: rest =>
    some (.wallFade (n2 w1 w0) (n2 v1 v0) (n2 d1 d0) (n2 c1 c0), rest)
  | 3, f1 :: f0 :: k1 :: k0 :: v1 :: v0 :: d1 :: d0 :: c1 :: c0 :: rest =>
    some (.levelFade (n2 f1 f0) (n2 k1 k0) (n2 v1 v0) (n2 d1 d0) (n2 c1 c0), rest)
  | 4, v1 :: v0 :: d1 :: d0 :: c1 :: c0 :: rest => some (.masterFade (n2 v1 v0) (n2 d1 d0) (n2 c1 c0), rest)
  | 5, w1 :: w0 :: m1 :: m0 :: p1 :: p0 :: r1 :: r0 :: g1 :: g0 :: b1 :: b0 :: rest =>
    some (.wallMode (n2 w1 w0) (n2 m1 m0) (n2 p1 p0) ⟨n2 r1 r0, n2 g1 g0, n2 b1 b0⟩, rest)
  | 0, _ | 1, _ | 2, _ | 3, _ | 4, _ | 5, _ => none
  | k, _ => some (.unknown k, [])

/-- The actions of STORE CUE, `count` of them, with nothing left over. -/
def readActions : Nat → List Byte → Option (List RawTimed)
  | 0, [] => some []
  | 0, _ :: _ => none
  | n + 1, k :: d1 :: d0 :: bytes =>
    match readAction k bytes with
    | none => none
    | some (.unknown code, _) => some [⟨n2 d1 d0, .unknown code⟩]
    | some (a, rest) => (readActions n rest).map (fun l => ⟨n2 d1 d0, a⟩ :: l)
  | _ + 1, _ => none

/-! ## Request bodies, by kind of the catalogue -/

/-- Kinds 0x01 to 0x05. -/
def readPartBody (t : Byte) (kind : Nat) (body : List Byte) : Option Instr :=
  match kind, body with
  | 0x01, [] => some (.identify t)
  | 0x02, [] => some (.readStatus t)
  | 0x03, [c, h, s, f1, f0, k1, k0] => some (.clearFlags t ⟨c.toNat, h.toNat, s.toNat, n2 f1 f0, n2 k1 k0⟩)
  | 0x04, [m] => some (.setNoticeMask t m.toNat)
  | 0x05, [s] => some (.reset t s.toNat)
  | _, _ => none

/-- Kinds 0x10 to 0x18. -/
def readTimingBody (t : Byte) (kind : Nat) (body : List Byte) : Option Instr :=
  match kind, body with
  | 0x10, [p, m, s, f, o, h1, h0] =>
    some (.setReference t ⟨present p 0 m.toNat, present p 1 s.toNat, present p 2 f.toNat, present p 3 o.toNat,
      present p 4 (n2 h1 h0)⟩)
  | 0x11, [] => some (.readTiming t)
  | 0x14, [c, p, h1, h0, f, s, o] =>
    some (.setCamera t ⟨c.toNat, present p 0 (n2 h1 h0), present p 1 f.toNat, present p 2 s.toNat, present p 3 o.toNat⟩)
  | 0x15, [a, b] => some (.setIdlePhase t (n2 a b))
  | 0x16, [a, b] => some (.setSlew t (n2 a b))
  | 0x17, [c, s] => some (.tally t c.toNat s.toNat)
  | 0x18, [] => some (.readPhase ⟨t, none⟩)
  | _, _ => none

/-- Kinds 0x20 to 0x2A. -/
def readStoreBody (t : Byte) (kind : Nat) (body : List Byte) : Option Instr :=
  match kind, body with
  | 0x20, [i, k, b3, b2, b1, b0, w1, w0, h1, h0, p, o] =>
    some (.defineRegion t ⟨i.toNat, k.toNat, n4 b3 b2 b1 b0, n2 w1 w0, n2 h1 h0, present p 0 o.toNat⟩)
  | 0x21, [i] => some (.deleteRegion t i.toNat)
  | 0x22, [i] => some (.readRegion t i.toNat)
  | 0x23, [] => some (.readMemory t)
  | 0x24, [] => some (.setShowLock t)
  | 0x25, r :: o2 :: o1 :: o0 :: pixels => (pixelsOf pixels).map (fun l => .writeContent t ⟨r.toNat, n3 o2 o1 o0, l⟩)
  | 0x26, [i, x1, x0, y1, y0, w1, w0, h1, h0, r1, r0, g1, g0, b1, b0] =>
    some (.fillRegion t ⟨i.toNat, ⟨n2 x1 x0, n2 y1 y0, n2 w1 w0, n2 h1 h0⟩, ⟨n2 r1 r0, n2 g1 g0, n2 b1 b0⟩⟩)
  | 0x27, [i, o2, o1, o0, n] => some (.readContent t ⟨i.toNat, n3 o2 o1 o0, n.toNat⟩)
  | 0x28, [] => some (.readPosting t)
  | 0x29, [i] => some (.setLiveInput t (none1 i))
  | 0x2A, [] => some (.readLive t)
  | _, _ => none

/-- Kinds 0x30 to 0x39. -/
def readWallBody (t : Byte) (kind : Nat) (body : List Byte) : Option Instr :=
  match kind, body with
  | 0x30, [w, a1, a0, h1, h0, m, r1, r0, g1, g0, b1, b0] =>
    some (.defineWall t ⟨w.toNat, n2 a1 a0, n2 h1 h0, m.toNat, ⟨n2 r1 r0, n2 g1 g0, n2 b1 b0⟩⟩)
  | 0x31, [w] => some (.deleteWall t w.toNat)
  | 0x32, [w, l, s, x1, x0, y1, y0, a1, a0, h1, h0, p1, p0, q1, q0] =>
    some (.setLayer t ⟨w.toNat, l.toNat, none1 s, ⟨n2 x1 x0, n2 y1 y0, n2 a1 a0, n2 h1 h0⟩, z2 p1 p0, z2 q1 q0⟩)
  | 0x33, [w, m, p, r1, r0, g1, g0, b1, b0] =>
    some (.setWallMode t ⟨w.toNat, m.toNat, p.toNat, ⟨n2 r1 r0, n2 g1 g0, n2 b1 b0⟩⟩)
  | 0x34, [i, w, c, p, x1, x0, y1, y0, a1, a0, h1, h0, o] =>
    some (.setTile t ⟨i.toNat, w.toNat, c.toNat, p.toNat, ⟨n2 x1 x0, n2 y1 y0, n2 a1 a0, n2 h1 h0⟩, o.toNat⟩)
  | 0x35, [i] => some (.removeTile t i.toNat)
  | 0x36, [i, p, r1, r0, g1, g0, b1, b0, o1, o0, c1, c0] =>
    some (.setCorrection t ⟨i.toNat, present p 0 (n2 r1 r0), present p 1 (n2 g1 g0), present p 2 (n2 b1 b0),
      present p 3 (n2 o1 o0), present p 4 (n2 c1 c0)⟩)
  | 0x37, [z, w, x1, x0, y1, y0, a1, a0, h1, h0] =>
    some (.defineZone t ⟨z.toNat, none1 w, ⟨n2 x1 x0, n2 y1 y0, n2 a1 a0, n2 h1 h0⟩⟩)
  | 0x38, [w] => some (.readWall t w.toNat)
  | 0x39, [z] => some (.readZone t z.toNat)
  | _, _ => none

/-- Kinds 0x40 to 0x4A. -/
def readCueBody (t : Byte) (kind : Nat) (body : List Byte) : Option Instr :=
  match kind, body with
  | 0x40, c1 :: c0 :: g :: a1 :: a0 :: n :: actions =>
    (readActions n.toNat actions).map (fun l => .storeCue t ⟨n2 c1 c0, g.toNat, n2 a1 a0, l⟩)
  | 0x41, [a, b] => some (.deleteCue t (n2 a b))
  | 0x42, [a, b] => some (.standby t (n2 a b))
  | 0x43, [] => some (.go t)
  | 0x44, [a, b] => some (.goCue t (n2 a b))
  | 0x45, [] => some (.cancelGo t)
  | 0x46, [] => some (.hold t)
  | 0x47, [] => some (.release t)
  | 0x48, [a, b] => some (.stepFrames t (n2 a b))
  | 0x49, [a, b, s] => some (.readCue t (n2 a b) s.toNat)
  | 0x4A, [] => some (.readCueState t)
  | _, _ => none

/-- Kinds 0x50 to 0x53. -/
def readLevelBody (t : Byte) (kind : Nat) (body : List Byte) : Option Instr :=
  match kind, body with
  | 0x50, c :: points =>
    match numbersOf points with
    | some l => if l.length = 15 then some (.setCurve t c.toNat l) else none
    | none => none
  | 0x51, [a1, a0, l1, l0, d1, d0, c] => some (.fade t ⟨n2 a1 a0, n2 l1 l0, n2 d1 d0, c.toNat⟩)
  | 0x52, [f1, f0, n, m, z, c, g1, g0, s1, s0] =>
    some (.setChannel t ⟨n2 f1 f0, n.toNat, m.toNat, z.toNat, c.toNat, n2 g1 g0, n2 s1 s0⟩)
  | 0x53, [v, f1, f0, n] => some (.readLevels t ⟨v.toNat, n2 f1 f0, n.toNat⟩)
  | _, _ => none

/-- Kinds 0x60 to 0x71. -/
def readLightBody (t : Byte) (kind : Nat) (body : List Byte) : Option Instr :=
  match kind, body with
  | 0x60, [o, e, p, r] => some (.setBus t ⟨o.toNat, e.toNat, present p 0 r.toNat⟩)
  | 0x61, [o, f, v1, v0, m1, m0, e] => some (.setFilter t ⟨o.toNat, f.toNat, n2 v1 v0, n2 m1 m0, e.toNat⟩)
  | 0x62, [i, o, a1, a0, f1, f0, n, p, k, s1, s0] =>
    some (.defineFixture t ⟨i.toNat, o.toNat, n2 a1 a0, n2 f1 f0, n.toNat, present p 0 k.toNat, present p 1 (n2 s1 s0)⟩)
  | 0x63, [i] => some (.deleteFixture t i.toNat)
  | 0x64, [o] => some (.readBus t o.toNat)
  | 0x65, [i, p, s] => some (.readFixture t i.toNat (present p 0 s.toNat))
  | 0x70, [o, p, c1, c0, d1, d0, m1, m0, l] =>
    some (.setDimmer t ⟨o.toNat, present p 0 (none2 (n2 c1 c0)), present p 1 (n2 d1 d0), present p 2 (n2 m1 m0),
      present p 3 l.toNat⟩)
  | 0x71, [o] => some (.readDimmer t (none1 o))
  | _, _ => none

/-- A request of a catalogue kind, if its body has the length that its kind's layout gives (R173). -/
def readBody (t : Byte) (kind : Nat) (body : List Byte) : Option Instr :=
  if kind < 0x10 then readPartBody t kind body
  else if kind < 0x20 then readTimingBody t kind body
  else if kind < 0x30 then readStoreBody t kind body
  else if kind < 0x40 then readWallBody t kind body
  else if kind < 0x50 then readCueBody t kind body
  else if kind < 0x60 then readLevelBody t kind body
  else readLightBody t kind body

/-- The request kinds of the catalogue. -/
def catalogue : List Nat :=
  [0x01, 0x02, 0x03, 0x04, 0x05, 0x10, 0x11, 0x14, 0x15, 0x16, 0x17, 0x18, 0x20, 0x21, 0x22, 0x23, 0x24, 0x25, 0x26,
    0x27, 0x28, 0x29, 0x2A, 0x30, 0x31, 0x32, 0x33, 0x34, 0x35, 0x36, 0x37, 0x38, 0x39] ++
  [0x40, 0x41, 0x42, 0x43, 0x44, 0x45, 0x46, 0x47, 0x48, 0x49, 0x4A, 0x50, 0x51, 0x52, 0x53, 0x60, 0x61, 0x62, 0x63,
    0x64, 0x65, 0x70, 0x71]

/-- What a good request puts into the request queue (R172, R173). -/
def readRequest (tag kind : Byte) (body : List Byte) : QueuedRequest :=
  if catalogue.contains kind.toNat then
    match readBody tag kind.toNat body with
    | some i => .command i
    | none => .badLength tag kind
  else .command (.unknownKind tag kind)

/-! ## Request bodies written -/

/-- A 1-byte field that may be NONE or ALL. -/
def byteOrNone : Option Nat → Byte
  | none => 0xFF
  | some n => byte n

/-- A 2-byte field that may be NONE. -/
def bytes2OrNone : Option Nat → List Byte
  | none => [0xFF, 0xFF]
  | some n => bytes2 n

/-- The presence byte of optional fields, in order. -/
def presence (l : List Bool) : Byte := byte ((mapFrom (fun i b => if b then 2 ^ i else 0) 0 l).sum)

def signedBytes (z : Int) : List Byte := bytes2 (unsigned16 z)
def rgbBytes (c : Rgb) : List Byte := bytes2 c.r ++ bytes2 c.g ++ bytes2 c.b
def rectBytes (r : Rect) : List Byte := bytes2 r.x ++ bytes2 r.y ++ bytes2 r.width ++ bytes2 r.height

/-- A pixel word, high byte first. -/
def wordBytes (w : Word) : List Byte :=
  [w.extractLsb' 24 8, w.extractLsb' 16 8, w.extractLsb' 8 8, w.extractLsb' 0 8]

/-- The kind byte and fields of an action. -/
def rawActionBytes : RawAction → Byte × List Byte
  | .layerSource w l s r px py =>
    (0, bytes2 w ++ bytes2 l ++ bytes2OrNone s ++ rectBytes r ++ signedBytes px ++ signedBytes py)
  | .layerFade w l v d c => (1, bytes2 w ++ bytes2 l ++ bytes2 v ++ bytes2 d ++ bytes2 c)
  | .wallFade w v d c => (2, bytes2 w ++ bytes2 v ++ bytes2 d ++ bytes2 c)
  | .levelFade f n v d c => (3, bytes2 f ++ bytes2 n ++ bytes2 v ++ bytes2 d ++ bytes2 c)
  | .masterFade v d c => (4, bytes2 v ++ bytes2 d ++ bytes2 c)
  | .wallMode w m p c => (5, bytes2 w ++ bytes2 m ++ bytes2 p ++ rgbBytes c)
  | .unknown k => (byte k, [])

def timedBytes (t : RawTimed) : List Byte :=
  (rawActionBytes t.action).1 :: (bytes2 t.delay ++ (rawActionBytes t.action).2)

/-- The kind, the tag and the body of a command that is a request of the catalogue. -/
def requestParts : Instr → Option (Nat × Byte × List Byte)
  | .identify t => some (0x01, t, [])
  | .readStatus t => some (0x02, t, [])
  | .clearFlags t q => some (0x03, t, [byte q.clip, byte q.shed, byte q.select] ++ bytes2 q.first ++ bytes2 q.count)
  | .setNoticeMask t m => some (0x04, t, [byte m])
  | .reset t s => some (0x05, t, [byte s])
  | .setReference t q => some (0x10, t,
      [presence [q.mode.isSome, q.standard.isSome, q.fieldMode.isSome, q.polarity.isSome, q.limit.isSome],
        byte (q.mode.getD 0), byte (q.standard.getD 0), byte (q.fieldMode.getD 0), byte (q.polarity.getD 0)] ++
      bytes2 (q.limit.getD 0))
  | .readTiming t => some (0x11, t, [])
  | .setCamera t q => some (0x14, t,
      [byte q.camera, presence [q.phase.isSome, q.preferred.isSome, q.source.isSome, q.polarity.isSome]] ++
      bytes2 (q.phase.getD 0) ++ [byte (q.preferred.getD 0), byte (q.source.getD 0), byte (q.polarity.getD 0)])
  | .setIdlePhase t p => some (0x15, t, bytes2 p)
  | .setSlew t l => some (0x16, t, bytes2 l)
  | .tally t c s => some (0x17, t, [byte c, byte s])
  | .readPhase ⟨t, none⟩ => some (0x18, t, [])
  | .defineRegion t q => some (0x20, t,
      [byte q.id, byte q.kind] ++ bytes4 q.base ++ bytes2 q.width ++ bytes2 q.height ++
      [presence [q.protect.isSome], byte (q.protect.getD 0)])
  | .deleteRegion t i => some (0x21, t, [byte i])
  | .readRegion t i => some (0x22, t, [byte i])
  | .readMemory t => some (0x23, t, [])
  | .setShowLock t => some (0x24, t, [])
  | .writeContent t q => some (0x25, t, byte q.region :: (bytes3 q.offset ++ q.pixels.flatMap wordBytes))
  | .fillRegion t q => some (0x26, t, byte q.region :: (rectBytes q.rect ++ rgbBytes q.colour))
  | .readContent t q => some (0x27, t, byte q.region :: (bytes3 q.offset ++ [byte q.count]))
  | .readPosting t => some (0x28, t, [])
  | .setLiveInput t r => some (0x29, t, [byteOrNone r])
  | .readLive t => some (0x2A, t, [])
  | .defineWall t q => some (0x30, t,
      byte q.wall :: (bytes2 q.width ++ bytes2 q.height ++ [byte q.refresh] ++ rgbBytes q.background))
  | .deleteWall t w => some (0x31, t, [byte w])
  | .setLayer t q => some (0x32, t,
      [byte q.wall, byte q.layer, byteOrNone q.source] ++ rectBytes q.rect ++ signedBytes q.px ++ signedBytes q.py)
  | .setWallMode t q => some (0x33, t, [byte q.wall, byte q.mode, byte q.pattern] ++ rgbBytes q.colour)
  | .setTile t q => some (0x34, t,
      [byte q.tile, byte q.wall, byte q.chain, byte q.position] ++ rectBytes q.rect ++ [byte q.orientation])
  | .removeTile t i => some (0x35, t, [byte i])
  | .setCorrection t q => some (0x36, t,
      [byte q.tile, presence [q.gainR.isSome, q.gainG.isSome, q.gainB.isSome, q.offset.isSome, q.clip.isSome]] ++
      bytes2 (q.gainR.getD 0) ++ bytes2 (q.gainG.getD 0) ++ bytes2 (q.gainB.getD 0) ++ bytes2 (q.offset.getD 0) ++
      bytes2 (q.clip.getD 0))
  | .defineZone t q => some (0x37, t, [byte q.zone, byteOrNone q.wall] ++ rectBytes q.rect)
  | .readWall t w => some (0x38, t, [byte w])
  | .readZone t z => some (0x39, t, [byte z])
  | .storeCue t q => some (0x40, t,
      bytes2 q.cue ++ [byte q.trigger] ++ bytes2 q.arg ++ [byte q.actions.length] ++ q.actions.flatMap timedBytes)
  | .deleteCue t c => some (0x41, t, bytes2 c)
  | .standby t c => some (0x42, t, bytes2 c)
  | .go t => some (0x43, t, [])
  | .goCue t c => some (0x44, t, bytes2 c)
  | .cancelGo t => some (0x45, t, [])
  | .hold t => some (0x46, t, [])
  | .release t => some (0x47, t, [])
  | .stepFrames t n => some (0x48, t, bytes2 n)
  | .readCue t c s => some (0x49, t, bytes2 c ++ [byte s])
  | .readCueState t => some (0x4A, t, [])
  | .setCurve t c l => some (0x50, t, byte c :: l.flatMap bytes2)
  | .fade t q => some (0x51, t, bytes2 q.target ++ bytes2 q.level ++ bytes2 q.duration ++ [byte q.curve])
  | .setChannel t q => some (0x52, t,
      bytes2 q.first ++ [byte q.count, byte q.mode, byte q.zone, byte q.component] ++ bytes2 q.gain ++
      bytes2 q.smoothing)
  | .readLevels t q => some (0x53, t, [byte q.view] ++ bytes2 q.first ++ [byte q.count])
  | .setBus t q => some (0x60, t, [byte q.port, byte q.enable, presence [q.rate.isSome], byte (q.rate.getD 0)])
  | .setFilter t q => some (0x61, t,
      [byte q.port, byte q.filter] ++ bytes2 q.value ++ bytes2 q.mask ++ [byte q.enabled])
  | .defineFixture t q => some (0x62, t,
      [byte q.id, byte q.port] ++ bytes2 q.address ++ bytes2 q.first ++
      [byte q.count, presence [q.keepAlive.isSome, q.silence.isSome], byte (q.keepAlive.getD 0)] ++
      bytes2 (q.silence.getD 0))
  | .deleteFixture t i => some (0x63, t, [byte i])
  | .readBus t p => some (0x64, t, [byte p])
  | .readFixture t i s => some (0x65, t, [byte i, presence [s.isSome], byte (s.getD 0)])
  | .setDimmer t q => some (0x70, t,
      [byte q.output, presence [q.channel.isSome, q.divisor.isSome, q.minWidth.isSome, q.polarity.isSome]] ++
      bytes2OrNone (q.channel.getD none) ++ bytes2 (q.divisor.getD 0) ++ bytes2 (q.minWidth.getD 0) ++
      [byte (q.polarity.getD 0)])
  | .readDimmer t o => some (0x71, t, [byteOrNone o])
  | .powerOn _ | .resetPin _ | .rankSized _ | .controlLinkFrame _ _ _ | .unknownKind _ _ | .transmitFrame | .linkReset
  | .fullReset _ | .framePulse _ | .linePulse _ | .lateLimit _ | .acquisitionAbandoned _ | .holdoverExpired _
  | .frameBoundary _ | .waitEntryDue _ | .followExpiry _ | .fadeEnd _ _ | .latchInstant _ _ | .chainEcho _ _
  | .zoneComplete _ | .dramAccessGrant _ | .burstGrant _ | .waitingRequestAccept | .regionRemoval | .readProceeds
  | .contentReadGrant _ | .inputFrameStart | .lineStrobe | .inputFrameComplete | .feedLost _ | .portJoined _
  | .portRecovered _ | .sendStart _ _ | .lostArbitration _ | .sendSuccess _ | .validReception _ _ | .busError _ _
  | .keepAliveExpiry _ _ | .silenceLimit _ _ | .dimmerPeriodStart _ _ | .dimmerPulseEnd _ | .inputPixel _ _ _
  | .quietPeriod _ | .readPhase ⟨_, some _⟩ => none

/-! ## Control Link frames -/

/-- The marker (R171). -/
def marker : Byte := 0xC5

/-- The bytes of a frame that the check covers (Formats, Control Link frame). -/
def frameHead (tag kind : Byte) (body : List Byte) : List Byte := bytes2 body.length ++ [tag, kind] ++ body

/-- A Control Link frame. -/
def linkFrame (tag kind : Byte) (body : List Byte) : List Byte :=
  marker :: (frameHead tag kind body ++ bytes2 (linkCheck (frameHead tag kind body)).toNat)

/-- A field as bytes (Fields not laid out above). -/
def Field.bytes : Field → List Byte
  | .u1 n => [byte n]
  | .u2 n => bytes2 n
  | .u4 n => bytes4 n
  | .i2 z => signedBytes z
  | .none1 => [0xFF]
  | .none2 => [0xFF, 0xFF]
  | .none4 => [0xFF, 0xFF, 0xFF, 0xFF]
  | .noneI2 => [0x80, 0x00]
  | .word w => wordBytes w

/-- The class code of a notice kind (Notice body). -/
def NoticeKind.classCode (k : NoticeKind) : Nat :=
  match k.cls with
  | none => 0
  | some .timing => 1
  | some .store => 2
  | some .wall => 3
  | some .cue => 4
  | some .fixture => 5
  | some .bus => 6

/-- The code of a notice kind (Notice body). -/
def NoticeKind.code : NoticeKind → Nat
  | .noticesDropped => 0x00
  | .referenceState => 0x01
  | .wrongStandard => 0x02
  | .frameSlip => 0x03
  | .cameraChange => 0x04
  | .rankFault => 0x10
  | .storeReady => 0x11
  | .writeDiscarded => 0x12
  | .liveState => 0x13
  | .chainState => 0x20
  | .loadShed => 0x21
  | .cueFired => 0x30
  | .cueComplete => 0x31
  | .actionSkipped => 0x32
  | .fixtureState => 0x40
  | .addressClash => 0x41
  | .portState => 0x50
  | .unknownSource => 0x51

/-- A reply or a notice as the frame that goes out (R173, Notice body). -/
def OutFrame.bytes : OutFrame → List Byte
  | .reply r => linkFrame r.tag r.kind (byte r.status.code :: r.fields.flatMap Field.bytes)
  | .notice n =>
    linkFrame 0 0x7F
      ([byte n.kind.classCode, byte n.kind.code] ++ bytes4 n.counter.toNat ++ n.details.flatMap Field.bytes)

/-! ## Characters on the line, R170 -/

/-- A byte as the bits of its character: a start bit (low), 8 data bits with the least significant first, a stop bit
(high). -/
def charBits (b : Byte) : List Bool := false :: (byteBits b).reverse ++ [true]

/-- A character as the receiver takes it: its value from the 8 bits after the start bit, an error where its stop bit
read low (R171). -/
def LineChar.read (c : LineChar) : RxChar :=
  ⟨byte (natOfBits ((c.bits.drop 1).take 8).reverse), c.gap, !c.bits.getD 9 false⟩

/-- The bits that a frame is sent as. -/
def OutFrame.lineBits (f : OutFrame) : List Bool := f.bytes.flatMap charBits

end Sys2Proof.Machine
end

