-- ==== Sys2Proof/Machine/Link.lean ====
section
/-! DEFINITION. The Link Dispatcher, chapter 12: the receiver, the request queue, the transmitter, and the requests of
the part itself (READ STATUS and CLEAR FLAGS are in Flags.lean). -/

namespace Sys2Proof.Machine

/-! ## The receiver, R171 and R172 -/

/-- R171: a frame is discarded: the link error count rises and the receiver hunts. -/
def linkError (s : State) : State :=
  s.setLkd { s.lkd with rx := .hunting, linkErrors := satAdd 65535 s.lkd.linkErrors 1 }

/-- R171: a character in HUNTING. -/
def huntChar (c : RxChar) (s : State) : State :=
  if !c.error && decide (c.value = marker) then s.setLkd { s.lkd with rx := .inFrame [] }
  else s.setLkd { s.lkd with rx := .hunting }

/-- The body length that the first two bytes of a frame give. -/
def frameLength (bytes : List Byte) : Nat := natOfBytes (bytes.take 2)

/-- R171: every byte of the frame is there; check and kind. A good request goes to the request queue (R172). -/
def endFrame (bytes : List Byte) (s : State) : State :=
  let head := bytes.take (4 + frameLength bytes)
  let kind := bytes.getD 3 0
  if bytes.drop (4 + frameLength bytes) ≠ bytes2 (linkCheck head).toNat ∨ 0x7F ≤ kind.toNat then linkError s
  else
    joinQueue (readRequest (bytes.getD 2 0) kind (head.drop 4)) (bytes.getD 2 0) kind
      (s.setLkd { s.lkd with rx := .hunting })

/-- R171: the bytes of a frame after one more. -/
def frameByte (bytes : List Byte) (s : State) : State :=
  if bytes.length = 2 ∧ 1024 < frameLength bytes then linkError s
  else if 6 ≤ bytes.length ∧ frameLength bytes + 6 ≤ bytes.length then endFrame bytes s
  else s.setLkd { s.lkd with rx := .inFrame bytes }

/-- R171: one character received. -/
def receiveChar (s : State) (c : RxChar) : State :=
  match s.lkd.rx with
  | .hunting => huntChar c s
  | .inFrame bytes =>
    if c.gap then huntChar c (linkError s)
    else if c.error then linkError s
    else frameByte (bytes ++ [c.value]) s

/-- CONTROL_LINK_FRAME, R170 to R172: characters received up to moment `time`. -/
def execControlLinkFrame (time : Nat) (lines : BitVec 8) (chars : List LineChar) (s : State) : Result :=
  .next ((chars.map LineChar.read).foldl receiveChar (setLines lines (s.setRtu (s.rtu.advance time))))

/-- UNKNOWN_KIND, R173 check 1: a request whose kind is not in the catalogue. -/
def execUnknownKind (tag kind : Byte) (s : State) : Result :=
  if catalogue.contains kind.toNat || decide (0x7F ≤ kind.toNat) then .next s
  else .next (serve (.unknownKind tag kind) tag kind (refuse .unknown) s)

/-- R173 check 2: the request at the head has the wrong length for its kind. -/
def answerBadLength (tag kind : Byte) (s : State) : State := answerHead tag kind .length [] s

/-! ## The transmitter, R174 -/

/-- The OK reply of a RESET (R179). -/
def OutFrame.isResetReply : OutFrame → Bool
  | .reply r => decide (r.kind = replyKind 0x05) && decide (r.status = .ok)
  | .notice _ => false

/-- R179: once its reply has been sent, the reset is due. -/
def holdAfter (f : OutFrame) : Hold → Hold
  | .resetReply scope => if f.isResetReply then .resetDue scope else .resetReply scope
  | h => h

/-- TRANSMIT_FRAME, R174: the frame that became ready first goes out whole. After a RESET's reply nothing more goes out
before the reset (R179). -/
def execTransmitFrame (s : State) : Result :=
  match s.lkd.hold, s.lkd.ready with
  | .resetDue _, _ => .next s
  | _, [] => .next s
  | h, f :: rest => .next (s.setLkd { s.lkd with ready := rest, sent := some f, sentCut := none, hold := holdAfter f h })

/-- What the transmit line has carried of the frame last put on it: all its bits, or the first ones, where the reset pin
cut it off (R170, R180). -/
def Lkd.lineBits (l : Lkd) : List Bool :=
  match l.sent, l.sentCut with
  | none, _ => []
  | some f, none => f.lineBits
  | some f, some n => f.lineBits.take n

/-! ## Part-level requests -/

/-- The link rate of the straps (R170), in Mbit/s. -/
def linkRate (straps : BitVec 2) : Nat :=
  match straps.toNat with
  | 0 => 1
  | 1 => 4
  | 2 => 12
  | _ => 25

/-- IDENTIFY, R177; the rate goes out as its number of Mbit/s. -/
def identify (s : State) : Answer :=
  .reply .ok
    [.u2 Config.vendorCode, .u2 Config.partCode, .u1 Config.revision, .u4 s.fsc.pageTotal, .u1 s.fsc.store.code,
      .u1 (linkRate s.lkd.straps)] s

/-- IDENTIFY, R177. -/
def execIdentify (tag : Byte) (s : State) : Result := .next (serve (.identify tag) tag 0x01 identify s)

/-- The mask that a byte gives (R175). -/
def maskOf (n : Nat) : NoticeMask :=
  ⟨n.testBit 0, n.testBit 1, n.testBit 2, n.testBit 3, n.testBit 4, n.testBit 5⟩

/-- R175. -/
def setNoticeMask (mask : Nat) (s : State) : Answer :=
  checked [(decide (64 ≤ mask), .range)] s (.reply .ok [.u1 mask] (s.setLkd { s.lkd with mask := maskOf mask }))

/-- SET_NOTICE_MASK, R175. -/
def execSetNoticeMask (tag : Byte) (mask : Nat) (s : State) : Result :=
  .next (serve (.setNoticeMask tag mask) tag 0x04 (setNoticeMask mask) s)

/-- R179: the reply is formed at once, and no later request is taken until it has been sent. -/
def reset (scope : Nat) (s : State) : Answer :=
  match ResetScope.ofCode scope with
  | none => refuse .range s
  | some sc =>
    if sc = .full ∧ s.fsc.showLock = true then refuse .locked s
    else .reply .ok [.u1 scope] (s.setLkd { s.lkd with hold := .resetReply sc })

/-- RESET, R179. -/
def execReset (tag : Byte) (scope : Nat) (s : State) : Result := .next (serve (.reset tag scope) tag 0x05 (reset
    scope) s)

end Sys2Proof.Machine
end

