-- ==== Sys2Proof/Machine/Reset.lean ====
section
/-! DEFINITION. Resets: full reset by power-on, the reset pin or RESET with scope FULL (R18, R31, R32, R47, R50, R64,
R75, R95, R108, R130, R146, R164, R169, R180), and link reset (R179). -/

namespace Sys2Proof.Machine

/-- What stands in DRAM after a full reset: what stood there, and what an access that it cut short had written (R50,
R75). There is one access at a time: the operand says of which kind it was (log 14). A rank in the middle of its
sizing keeps its words (log 39). -/
def abandonAccess (r : ResetIn) (s : State) : Memory :=
  if r.live = 0 then (abandonBurst r.cut s).mem else (abandonCapture r.live s).mem

/-- A full reset: every block takes its reset values. Content in DRAM stays (R50), also in a rank whose sizing this reset
abandons (log 39); the straps are sampled (R170); frame 0 begins at this moment (R5); the pins keep their levels. Replies and notices that
were formed and not yet sent are dropped with the queues that R180 names (the model's choice: log 46). -/
def fullReset (r : ResetIn) (s : State) : State :=
  { State.reset with
    rtu := { Rtu.reset with now := s.rtu.now, baseTime := s.rtu.now }
    cph := { Cph.reset with lines := s.cph.lines }
    fsc := { Fsc.reset with mem := abandonAccess r s }
    lkd := { Lkd.reset with straps := r.straps, choice := s.lkd.choice }
    pending := s.pending }

/-- POWER_ON, R180 (what DRAM holds at power-on: log 26). -/
def execPowerOn (r : ResetIn) (s : State) : Result := .next (fullReset r s)

/-- R180: a frame of `s` that was being sent when the reset pin acted is cut off where it stood; `t` is the part after
the reset. -/
def cutSending (r : ResetIn) (s t : State) : State :=
  match r.sending, s.lkd.sent, s.lkd.sentCut with
  | some n, some f, none =>
    if n < f.lineBits.length then t.setLkd { t.lkd with sent := some f, sentCut := some n } else t
  | _, _, _ => t

/-- RESET_PIN, R180. -/
def execResetPin (r : ResetIn) (s : State) : Result := .next (cutSending r s (fullReset r s))

/-- FULL_RESET, R179: the reply of a RESET with scope FULL has been sent, whole, and nothing after it. -/
def execFullReset (r : ResetIn) (s : State) : Result :=
  if s.lkd.hold = .resetDue .full then .next (fullReset r s) else .next s

/-- R179, LINK: the request and notice queues are emptied and the mask is all six classes; nothing else changes. -/
def linkReset (s : State) : State :=
  s.setLkd { s.lkd with
    requests := [], ready := s.lkd.ready.filter (fun f => !f.isNotice), mask := NoticeMask.all, hold := .free }

/-- LINK_RESET, R179: the reply of a RESET with scope LINK has been sent. -/
def execLinkReset (s : State) : Result :=
  if s.lkd.hold = .resetDue .link then .next (linkReset s) else .next s

end Sys2Proof.Machine
end

