-- ==== Sys2Proof/Machine/Dispatch.lean ====
section
/-! DEFINITION. The dispatch: one arm for each row of spec/opcode_table.json. -/

namespace Sys2Proof.Machine

def exec (i : Instr) (s : State) : Host.Outcome State Fault Refusal :=
  match i with
  | .powerOn r => Sys2Proof.Machine.execPowerOn r s
  | .resetPin r => Sys2Proof.Machine.execResetPin r s
  | .rankSized o => Sys2Proof.Machine.execRankSized o s
  | .controlLinkFrame time tally chars => Sys2Proof.Machine.execControlLinkFrame time tally chars s
  | .unknownKind tag kind => Sys2Proof.Machine.execUnknownKind tag kind s
  | .transmitFrame => Sys2Proof.Machine.execTransmitFrame s
  | .identify tag => Sys2Proof.Machine.execIdentify tag s
  | .readStatus tag => Sys2Proof.Machine.execReadStatus tag s
  | .clearFlags tag r => Sys2Proof.Machine.execClearFlags tag r s
  | .setNoticeMask tag mask => Sys2Proof.Machine.execSetNoticeMask tag mask s
  | .reset tag scope => Sys2Proof.Machine.execReset tag scope s
  | .linkReset => Sys2Proof.Machine.execLinkReset s
  | .fullReset r => Sys2Proof.Machine.execFullReset r s
  | .setReference tag r => Sys2Proof.Machine.execSetReference tag r s
  | .readTiming tag => Sys2Proof.Machine.execReadTiming tag s
  | .framePulse p => Sys2Proof.Machine.execFramePulse p s
  | .linePulse time => Sys2Proof.Machine.execLinePulse time s
  | .lateLimit tally => Sys2Proof.Machine.execLateLimit tally s
  | .acquisitionAbandoned tally => Sys2Proof.Machine.execAcquisitionAbandoned tally s
  | .holdoverExpired tally => Sys2Proof.Machine.execHoldoverExpired tally s
  | .frameBoundary tally => Sys2Proof.Machine.execFrameBoundary tally s
  | .waitEntryDue tally => Sys2Proof.Machine.execWaitEntryDue tally s
  | .followExpiry tally => Sys2Proof.Machine.execFollowExpiry tally s
  | .fadeEnd target tally => Sys2Proof.Machine.execFadeEnd target tally s
  | .latchInstant wall k => Sys2Proof.Machine.execLatchInstant wall k s
  | .chainEcho chain word => Sys2Proof.Machine.execChainEcho chain word s
  | .zoneComplete zone => Sys2Proof.Machine.execZoneComplete zone s
  | .dramAccessGrant asks => Sys2Proof.Machine.execDramAccessGrant asks s
  | .burstGrant asks => Sys2Proof.Machine.execBurstGrant asks s
  | .waitingRequestAccept => Sys2Proof.Machine.execWaitingRequestAccept s
  | .regionRemoval => Sys2Proof.Machine.execRegionRemoval s
  | .readProceeds => Sys2Proof.Machine.execReadProceeds s
  | .contentReadGrant asks => Sys2Proof.Machine.execContentReadGrant asks s
  | .inputFrameStart => Sys2Proof.Machine.execInputFrameStart s
  | .lineStrobe => Sys2Proof.Machine.execLineStrobe s
  | .inputFrameComplete => Sys2Proof.Machine.execInputFrameComplete s
  | .feedLost tally => Sys2Proof.Machine.execFeedLost tally s
  | .setCamera tag r => Sys2Proof.Machine.execSetCamera tag r s
  | .setIdlePhase tag phase => Sys2Proof.Machine.execSetIdlePhase tag phase s
  | .setSlew tag limit => Sys2Proof.Machine.execSetSlew tag limit s
  | .tally tag camera state => Sys2Proof.Machine.execTally tag camera state s
  | .readPhase r => Sys2Proof.Machine.execReadPhase r s
  | .defineRegion tag r => Sys2Proof.Machine.execDefineRegion tag r s
  | .deleteRegion tag id => Sys2Proof.Machine.execDeleteRegion tag id s
  | .readRegion tag id => Sys2Proof.Machine.execReadRegion tag id s
  | .readMemory tag => Sys2Proof.Machine.execReadMemory tag s
  | .setShowLock tag => Sys2Proof.Machine.execSetShowLock tag s
  | .writeContent tag r => Sys2Proof.Machine.execWriteContent tag r s
  | .fillRegion tag r => Sys2Proof.Machine.execFillRegion tag r s
  | .readContent tag r => Sys2Proof.Machine.execReadContent tag r s
  | .readPosting tag => Sys2Proof.Machine.execReadPosting tag s
  | .setLiveInput tag region => Sys2Proof.Machine.execSetLiveInput tag region s
  | .readLive tag => Sys2Proof.Machine.execReadLive tag s
  | .defineWall tag r => Sys2Proof.Machine.execDefineWall tag r s
  | .deleteWall tag wall => Sys2Proof.Machine.execDeleteWall tag wall s
  | .setLayer tag r => Sys2Proof.Machine.execSetLayer tag r s
  | .setWallMode tag r => Sys2Proof.Machine.execSetWallMode tag r s
  | .setTile tag r => Sys2Proof.Machine.execSetTile tag r s
  | .removeTile tag tile => Sys2Proof.Machine.execRemoveTile tag tile s
  | .setCorrection tag r => Sys2Proof.Machine.execSetCorrection tag r s
  | .defineZone tag r => Sys2Proof.Machine.execDefineZone tag r s
  | .readWall tag wall => Sys2Proof.Machine.execReadWall tag wall s
  | .readZone tag zone => Sys2Proof.Machine.execReadZone tag zone s
  | .storeCue tag r => Sys2Proof.Machine.execStoreCue tag r s
  | .deleteCue tag cue => Sys2Proof.Machine.execDeleteCue tag cue s
  | .standby tag cue => Sys2Proof.Machine.execStandby tag cue s
  | .go tag => Sys2Proof.Machine.execGo tag s
  | .goCue tag cue => Sys2Proof.Machine.execGoCue tag cue s
  | .cancelGo tag => Sys2Proof.Machine.execCancelGo tag s
  | .hold tag => Sys2Proof.Machine.execHold tag s
  | .release tag => Sys2Proof.Machine.execRelease tag s
  | .stepFrames tag n => Sys2Proof.Machine.execStepFrames tag n s
  | .readCue tag cue search => Sys2Proof.Machine.execReadCue tag cue search s
  | .readCueState tag => Sys2Proof.Machine.execReadCueState tag s
  | .setCurve tag curve points => Sys2Proof.Machine.execSetCurve tag curve points s
  | .fade tag r => Sys2Proof.Machine.execFade tag r s
  | .setChannel tag r => Sys2Proof.Machine.execSetChannel tag r s
  | .readLevels tag r => Sys2Proof.Machine.execReadLevels tag r s
  | .setBus tag r => Sys2Proof.Machine.execSetBus tag r s
  | .setFilter tag r => Sys2Proof.Machine.execSetFilter tag r s
  | .defineFixture tag r => Sys2Proof.Machine.execDefineFixture tag r s
  | .deleteFixture tag id => Sys2Proof.Machine.execDeleteFixture tag id s
  | .readBus tag port => Sys2Proof.Machine.execReadBus tag port s
  | .readFixture tag id search => Sys2Proof.Machine.execReadFixture tag id search s
  | .setDimmer tag r => Sys2Proof.Machine.execSetDimmer tag r s
  | .readDimmer tag output => Sys2Proof.Machine.execReadDimmer tag output s
  | .portJoined p => Sys2Proof.Machine.execPortJoined p s
  | .portRecovered p => Sys2Proof.Machine.execPortRecovered p s
  | .sendStart p idleBits => Sys2Proof.Machine.execSendStart p idleBits s
  | .lostArbitration p => Sys2Proof.Machine.execLostArbitration p s
  | .sendSuccess p => Sys2Proof.Machine.execSendSuccess p s
  | .validReception p r => Sys2Proof.Machine.execValidReception p r s
  | .busError p e => Sys2Proof.Machine.execBusError p e s
  | .keepAliveExpiry fixture tally => Sys2Proof.Machine.execKeepAliveExpiry fixture tally s
  | .silenceLimit fixture tally => Sys2Proof.Machine.execSilenceLimit fixture tally s
  | .dimmerPeriodStart output j => Sys2Proof.Machine.execDimmerPeriodStart output j s
  | .dimmerPulseEnd output => Sys2Proof.Machine.execDimmerPulseEnd output s
  | .inputPixel r g b => Sys2Proof.Machine.execInputPixel r g b s
  | .quietPeriod p => Sys2Proof.Machine.execQuietPeriod p s

end Sys2Proof.Machine
end

