-- ==== Sys2Proof/Machine/Step.lean ====
section
/-! DEFINITION. The step: the command at the front of the queue, or, with none waiting, the first piece of work that
the part does by itself and that is due (log 2). -/

namespace Sys2Proof.Machine

/-- A zone whose last pixel has been composed and whose event has not been raised (R106); of several the lowest number
(the model's choice: log 2, 18). -/
def State.dueZone (s : State) : Option Nat := (s.wse.zones.find? (fun e => e.2.due)).map (·.1)

/-- A port whose quiet count has reached 64 (R155). -/
def State.duePort (s : State) (p : Port) : Bool := decide ((s.port p).state = .detached) && decide (64 ≤ (s.port
    p).quiet)

/-- The work that the Link Dispatcher has (R53, R42, R61, R173, R179). A full reset that is due takes the strap pins
from outside, and comes as the command FULL_RESET (log 2). -/
def State.linkWork (s : State) : Option QueuedRequest :=
  match s.lkd.hold with
  | .resetDue .link => some (.command .linkReset)
  | .place => if s.fsc.posting.length < 8 then some (.command .waitingRequestAccept) else none
  | .drain =>
    match s.lkd.requests with
    | .command (.deleteRegion _ id) :: _ =>
      match s.region id with
      | some r => if r.posted = 0 then some (.command .regionRemoval) else none
      | none => none
    | _ => none
  | .readDrain =>
    match s.lkd.requests with
    | .command (.readContent _ q) :: _ =>
      match s.region q.region with
      | some r => if r.posted = 0 then some (.command .readProceeds) else none
      | none => none
    | _ => none
  | .free => s.lkd.requests.head?
  | .readGrant | .resetReply _ | .resetDue .full => none

/-- The first piece of internal work that is due (log 2). -/
def State.nextWork (s : State) : Option QueuedRequest :=
  if s.duePort .a then some (.command (.portRecovered .a))
  else if s.duePort .b then some (.command (.portRecovered .b))
  else
    match s.dueZone with
    | some z => some (.command (.zoneComplete z))
    | none => s.linkWork

/-- What the part does with no command waiting. -/
def idle (s : State) : Result :=
  match s.nextWork with
  | none => .next s
  | some (.command i) => exec i s
  | some (.badLength tag kind) => .next (answerBadLength tag kind s)

/-- One step: the command at the front of the queue, with the queue's rest; or the part's own work. -/
def step (s : State) : Host.Outcome State Fault Refusal :=
  match s.pending with
  | c :: rest => exec c { s with pending := rest }
  | [] => idle s

/-- The command that a word spells, put at the front of the queue; no word spells one (log 30). -/
def State.withFetchWord (s : State) (nbits w : Nat) : State :=
  match decodeTableWord nbits w with
  | some c => { s with pending := c :: s.pending }
  | none => s

end Sys2Proof.Machine
end

