-- ==== Sys2Proof/Laws/State.lean ====
section
/-! SUPPORT. What writing one block of the state leaves in each field: one lemma per field per update, all true by
`rfl`, so that no proof unfolds a record update. -/

namespace Sys2Proof.Machine

variable (s : State)

@[simp] theorem State.setRtu_rtu (x) : (s.setRtu x).rtu = x := rfl
@[simp] theorem State.setRtu_cph (x) : (s.setRtu x).cph = s.cph := rfl
@[simp] theorem State.setRtu_fsc (x) : (s.setRtu x).fsc = s.fsc := rfl
@[simp] theorem State.setRtu_lip (x) : (s.setRtu x).lip = s.lip := rfl
@[simp] theorem State.setRtu_wse (x) : (s.setRtu x).wse = s.wse := rfl
@[simp] theorem State.setRtu_cue (x) : (s.setRtu x).cue = s.cue := rfl
@[simp] theorem State.setRtu_lvp (x) : (s.setRtu x).lvp = s.lvp := rfl
@[simp] theorem State.setRtu_fbc (x) : (s.setRtu x).fbc = s.fbc := rfl
@[simp] theorem State.setRtu_dou (x) : (s.setRtu x).dou = s.dou := rfl
@[simp] theorem State.setRtu_lkd (x) : (s.setRtu x).lkd = s.lkd := rfl
@[simp] theorem State.setRtu_pending (x) : (s.setRtu x).pending = s.pending := rfl
@[simp] theorem State.setRtu_setRtu (x y) : (s.setRtu x).setRtu y = s.setRtu y := rfl
@[simp] theorem State.setRtu_self : s.setRtu s.rtu = s := rfl

@[simp] theorem State.setCph_rtu (x) : (s.setCph x).rtu = s.rtu := rfl
@[simp] theorem State.setCph_cph (x) : (s.setCph x).cph = x := rfl
@[simp] theorem State.setCph_fsc (x) : (s.setCph x).fsc = s.fsc := rfl
@[simp] theorem State.setCph_lip (x) : (s.setCph x).lip = s.lip := rfl
@[simp] theorem State.setCph_wse (x) : (s.setCph x).wse = s.wse := rfl
@[simp] theorem State.setCph_cue (x) : (s.setCph x).cue = s.cue := rfl
@[simp] theorem State.setCph_lvp (x) : (s.setCph x).lvp = s.lvp := rfl
@[simp] theorem State.setCph_fbc (x) : (s.setCph x).fbc = s.fbc := rfl
@[simp] theorem State.setCph_dou (x) : (s.setCph x).dou = s.dou := rfl
@[simp] theorem State.setCph_lkd (x) : (s.setCph x).lkd = s.lkd := rfl
@[simp] theorem State.setCph_pending (x) : (s.setCph x).pending = s.pending := rfl
@[simp] theorem State.setCph_setCph (x y) : (s.setCph x).setCph y = s.setCph y := rfl
@[simp] theorem State.setCph_self : s.setCph s.cph = s := rfl

@[simp] theorem State.setFsc_rtu (x) : (s.setFsc x).rtu = s.rtu := rfl
@[simp] theorem State.setFsc_cph (x) : (s.setFsc x).cph = s.cph := rfl
@[simp] theorem State.setFsc_fsc (x) : (s.setFsc x).fsc = x := rfl
@[simp] theorem State.setFsc_lip (x) : (s.setFsc x).lip = s.lip := rfl
@[simp] theorem State.setFsc_wse (x) : (s.setFsc x).wse = s.wse := rfl
@[simp] theorem State.setFsc_cue (x) : (s.setFsc x).cue = s.cue := rfl
@[simp] theorem State.setFsc_lvp (x) : (s.setFsc x).lvp = s.lvp := rfl
@[simp] theorem State.setFsc_fbc (x) : (s.setFsc x).fbc = s.fbc := rfl
@[simp] theorem State.setFsc_dou (x) : (s.setFsc x).dou = s.dou := rfl
@[simp] theorem State.setFsc_lkd (x) : (s.setFsc x).lkd = s.lkd := rfl
@[simp] theorem State.setFsc_pending (x) : (s.setFsc x).pending = s.pending := rfl
@[simp] theorem State.setFsc_setFsc (x y) : (s.setFsc x).setFsc y = s.setFsc y := rfl
@[simp] theorem State.setFsc_self : s.setFsc s.fsc = s := rfl

@[simp] theorem State.setLip_rtu (x) : (s.setLip x).rtu = s.rtu := rfl
@[simp] theorem State.setLip_cph (x) : (s.setLip x).cph = s.cph := rfl
@[simp] theorem State.setLip_fsc (x) : (s.setLip x).fsc = s.fsc := rfl
@[simp] theorem State.setLip_lip (x) : (s.setLip x).lip = x := rfl
@[simp] theorem State.setLip_wse (x) : (s.setLip x).wse = s.wse := rfl
@[simp] theorem State.setLip_cue (x) : (s.setLip x).cue = s.cue := rfl
@[simp] theorem State.setLip_lvp (x) : (s.setLip x).lvp = s.lvp := rfl
@[simp] theorem State.setLip_fbc (x) : (s.setLip x).fbc = s.fbc := rfl
@[simp] theorem State.setLip_dou (x) : (s.setLip x).dou = s.dou := rfl
@[simp] theorem State.setLip_lkd (x) : (s.setLip x).lkd = s.lkd := rfl
@[simp] theorem State.setLip_pending (x) : (s.setLip x).pending = s.pending := rfl
@[simp] theorem State.setLip_setLip (x y) : (s.setLip x).setLip y = s.setLip y := rfl
@[simp] theorem State.setLip_self : s.setLip s.lip = s := rfl

@[simp] theorem State.setWse_rtu (x) : (s.setWse x).rtu = s.rtu := rfl
@[simp] theorem State.setWse_cph (x) : (s.setWse x).cph = s.cph := rfl
@[simp] theorem State.setWse_fsc (x) : (s.setWse x).fsc = s.fsc := rfl
@[simp] theorem State.setWse_lip (x) : (s.setWse x).lip = s.lip := rfl
@[simp] theorem State.setWse_wse (x) : (s.setWse x).wse = x := rfl
@[simp] theorem State.setWse_cue (x) : (s.setWse x).cue = s.cue := rfl
@[simp] theorem State.setWse_lvp (x) : (s.setWse x).lvp = s.lvp := rfl
@[simp] theorem State.setWse_fbc (x) : (s.setWse x).fbc = s.fbc := rfl
@[simp] theorem State.setWse_dou (x) : (s.setWse x).dou = s.dou := rfl
@[simp] theorem State.setWse_lkd (x) : (s.setWse x).lkd = s.lkd := rfl
@[simp] theorem State.setWse_pending (x) : (s.setWse x).pending = s.pending := rfl
@[simp] theorem State.setWse_setWse (x y) : (s.setWse x).setWse y = s.setWse y := rfl
@[simp] theorem State.setWse_self : s.setWse s.wse = s := rfl

@[simp] theorem State.setCue_rtu (x) : (s.setCue x).rtu = s.rtu := rfl
@[simp] theorem State.setCue_cph (x) : (s.setCue x).cph = s.cph := rfl
@[simp] theorem State.setCue_fsc (x) : (s.setCue x).fsc = s.fsc := rfl
@[simp] theorem State.setCue_lip (x) : (s.setCue x).lip = s.lip := rfl
@[simp] theorem State.setCue_wse (x) : (s.setCue x).wse = s.wse := rfl
@[simp] theorem State.setCue_cue (x) : (s.setCue x).cue = x := rfl
@[simp] theorem State.setCue_lvp (x) : (s.setCue x).lvp = s.lvp := rfl
@[simp] theorem State.setCue_fbc (x) : (s.setCue x).fbc = s.fbc := rfl
@[simp] theorem State.setCue_dou (x) : (s.setCue x).dou = s.dou := rfl
@[simp] theorem State.setCue_lkd (x) : (s.setCue x).lkd = s.lkd := rfl
@[simp] theorem State.setCue_pending (x) : (s.setCue x).pending = s.pending := rfl
@[simp] theorem State.setCue_setCue (x y) : (s.setCue x).setCue y = s.setCue y := rfl
@[simp] theorem State.setCue_self : s.setCue s.cue = s := rfl

@[simp] theorem State.setLvp_rtu (x) : (s.setLvp x).rtu = s.rtu := rfl
@[simp] theorem State.setLvp_cph (x) : (s.setLvp x).cph = s.cph := rfl
@[simp] theorem State.setLvp_fsc (x) : (s.setLvp x).fsc = s.fsc := rfl
@[simp] theorem State.setLvp_lip (x) : (s.setLvp x).lip = s.lip := rfl
@[simp] theorem State.setLvp_wse (x) : (s.setLvp x).wse = s.wse := rfl
@[simp] theorem State.setLvp_cue (x) : (s.setLvp x).cue = s.cue := rfl
@[simp] theorem State.setLvp_lvp (x) : (s.setLvp x).lvp = x := rfl
@[simp] theorem State.setLvp_fbc (x) : (s.setLvp x).fbc = s.fbc := rfl
@[simp] theorem State.setLvp_dou (x) : (s.setLvp x).dou = s.dou := rfl
@[simp] theorem State.setLvp_lkd (x) : (s.setLvp x).lkd = s.lkd := rfl
@[simp] theorem State.setLvp_pending (x) : (s.setLvp x).pending = s.pending := rfl
@[simp] theorem State.setLvp_setLvp (x y) : (s.setLvp x).setLvp y = s.setLvp y := rfl
@[simp] theorem State.setLvp_self : s.setLvp s.lvp = s := rfl

@[simp] theorem State.setFbc_rtu (x) : (s.setFbc x).rtu = s.rtu := rfl
@[simp] theorem State.setFbc_cph (x) : (s.setFbc x).cph = s.cph := rfl
@[simp] theorem State.setFbc_fsc (x) : (s.setFbc x).fsc = s.fsc := rfl
@[simp] theorem State.setFbc_lip (x) : (s.setFbc x).lip = s.lip := rfl
@[simp] theorem State.setFbc_wse (x) : (s.setFbc x).wse = s.wse := rfl
@[simp] theorem State.setFbc_cue (x) : (s.setFbc x).cue = s.cue := rfl
@[simp] theorem State.setFbc_lvp (x) : (s.setFbc x).lvp = s.lvp := rfl
@[simp] theorem State.setFbc_fbc (x) : (s.setFbc x).fbc = x := rfl
@[simp] theorem State.setFbc_dou (x) : (s.setFbc x).dou = s.dou := rfl
@[simp] theorem State.setFbc_lkd (x) : (s.setFbc x).lkd = s.lkd := rfl
@[simp] theorem State.setFbc_pending (x) : (s.setFbc x).pending = s.pending := rfl
@[simp] theorem State.setFbc_setFbc (x y) : (s.setFbc x).setFbc y = s.setFbc y := rfl
@[simp] theorem State.setFbc_self : s.setFbc s.fbc = s := rfl

@[simp] theorem State.setDou_rtu (x) : (s.setDou x).rtu = s.rtu := rfl
@[simp] theorem State.setDou_cph (x) : (s.setDou x).cph = s.cph := rfl
@[simp] theorem State.setDou_fsc (x) : (s.setDou x).fsc = s.fsc := rfl
@[simp] theorem State.setDou_lip (x) : (s.setDou x).lip = s.lip := rfl
@[simp] theorem State.setDou_wse (x) : (s.setDou x).wse = s.wse := rfl
@[simp] theorem State.setDou_cue (x) : (s.setDou x).cue = s.cue := rfl
@[simp] theorem State.setDou_lvp (x) : (s.setDou x).lvp = s.lvp := rfl
@[simp] theorem State.setDou_fbc (x) : (s.setDou x).fbc = s.fbc := rfl
@[simp] theorem State.setDou_dou (x) : (s.setDou x).dou = x := rfl
@[simp] theorem State.setDou_lkd (x) : (s.setDou x).lkd = s.lkd := rfl
@[simp] theorem State.setDou_pending (x) : (s.setDou x).pending = s.pending := rfl
@[simp] theorem State.setDou_setDou (x y) : (s.setDou x).setDou y = s.setDou y := rfl
@[simp] theorem State.setDou_self : s.setDou s.dou = s := rfl

@[simp] theorem State.setLkd_rtu (x) : (s.setLkd x).rtu = s.rtu := rfl
@[simp] theorem State.setLkd_cph (x) : (s.setLkd x).cph = s.cph := rfl
@[simp] theorem State.setLkd_fsc (x) : (s.setLkd x).fsc = s.fsc := rfl
@[simp] theorem State.setLkd_lip (x) : (s.setLkd x).lip = s.lip := rfl
@[simp] theorem State.setLkd_wse (x) : (s.setLkd x).wse = s.wse := rfl
@[simp] theorem State.setLkd_cue (x) : (s.setLkd x).cue = s.cue := rfl
@[simp] theorem State.setLkd_lvp (x) : (s.setLkd x).lvp = s.lvp := rfl
@[simp] theorem State.setLkd_fbc (x) : (s.setLkd x).fbc = s.fbc := rfl
@[simp] theorem State.setLkd_dou (x) : (s.setLkd x).dou = s.dou := rfl
@[simp] theorem State.setLkd_lkd (x) : (s.setLkd x).lkd = x := rfl
@[simp] theorem State.setLkd_pending (x) : (s.setLkd x).pending = s.pending := rfl
@[simp] theorem State.setLkd_setLkd (x y) : (s.setLkd x).setLkd y = s.setLkd y := rfl
@[simp] theorem State.setLkd_self : s.setLkd s.lkd = s := rfl

end Sys2Proof.Machine
end

