-- ==== Sys2Proof/WellFormed.lean ====
section
/-! DEFINITION. Well-formed commands: every number fits the field that carries it, lists have the length that their
layout allows, and the numbers of walls, zones, outputs and the like name something that exists. A request whose values
are out of the ranges of its rule is well formed, as long as its body can carry them: refusing it is its meaning. -/

namespace Sys2Proof

/-- Fits one byte. -/
def fits1 (n : Nat) : Bool := decide (n < 256)

/-- Fits two bytes. -/
def fits2 (n : Nat) : Bool := decide (n < 65536)

/-- Fits three bytes. -/
def fits3 (n : Nat) : Bool := decide (n < 16777216)

/-- Fits four bytes. -/
def fits4 (n : Nat) : Bool := decide (n < 4294967296)

/-- Fits a signed field of two bytes. -/
def fitsSigned (z : Int) : Bool := decide (-32768 ≤ z) && decide (z < 32768)

/-- A value that is absent, or fits. -/
def fitsIf (fits : Nat → Bool) : Option Nat → Bool
  | none => true
  | some n => fits n

/-- Fits one byte whose value 255 is taken by NONE or ALL. -/
def named1 (n : Nat) : Bool := decide (n < 255)

/-- Fits two bytes whose value 65535 is taken by NONE. -/
def named2 (n : Nat) : Bool := decide (n < 65535)

def Rgb.fits (c : Rgb) : Bool := fits2 c.r && fits2 c.g && fits2 c.b
def Rect.fits (r : Rect) : Bool := fits2 r.x && fits2 r.y && fits2 r.width && fits2 r.height

/-- The fields of an action fit; a kind code that names no kind is one of 6..255. -/
def RawAction.wf : RawAction → Bool
  | .layerSource w l s r px py =>
    fits2 w && fits2 l && fitsIf named2 s && r.fits && fitsSigned px && fitsSigned py
  | .layerFade w l v d c => fits2 w && fits2 l && fits2 v && fits2 d && fits2 c
  | .wallFade w v d c => fits2 w && fits2 v && fits2 d && fits2 c
  | .levelFade f n v d c => fits2 f && fits2 n && fits2 v && fits2 d && fits2 c
  | .masterFade v d c => fits2 v && fits2 d && fits2 c
  | .wallMode w m p c => fits2 w && fits2 m && fits2 p && c.fits
  | .unknown k => decide (5 < k) && decide (k < 256)

/-- A kind code that names no kind. -/
def RawAction.isUnknown : RawAction → Bool
  | .unknown _ => true
  | _ => false

/-- The actions of STORE CUE fit, and none follows one whose kind is unknown. -/
def wfActions : List RawTimed → Bool
  | [] => true
  | t :: rest => fits2 t.delay && t.action.wf && wfActions rest && (!t.action.isUnknown || rest.isEmpty)

/-- Which of the two upper requesters wait names a wall. -/
def Asks.wf (a : Asks) : Bool :=
  match a.scan with
  | none => true
  | some (w, _) => decide (w ≤ 3)

/-- The outcome of sizing names a size of R34 and a page within it. -/
def RankOutcome.wf : RankOutcome → Bool
  | .absent => true
  | .sizeFault => true
  | .passed size => size == 32 || size == 64 || size == 128
  | .patternFault size page => (size == 32 || size == 64 || size == 128) && decide (page < size * 256)

/-- The command is well formed. -/
def Instr.wf : Instr → Bool
  | .powerOn r => r.sending.isNone
  | .resetPin _ => true
  | .rankSized o => o.wf
  | .controlLinkFrame _ _ _ => true
  | .unknownKind _ k => decide (k.toNat < 0x7F) && !Machine.catalogue.contains k.toNat
  | .transmitFrame => true
  | .identify _ => true
  | .readStatus _ => true
  | .clearFlags _ q => fits1 q.clip && fits1 q.shed && fits1 q.select && fits2 q.first && fits2 q.count
  | .setNoticeMask _ m => fits1 m
  | .reset _ s => fits1 s
  | .linkReset => true
  | .fullReset r => r.sending.isNone
  | .setReference _ q =>
    fitsIf fits1 q.mode && fitsIf fits1 q.standard && fitsIf fits1 q.fieldMode && fitsIf fits1 q.polarity &&
      fitsIf fits2 q.limit
  | .readTiming _ => true
  | .framePulse _ => true
  | .linePulse _ => true
  | .lateLimit _ => true
  | .acquisitionAbandoned _ => true
  | .holdoverExpired _ => true
  | .frameBoundary _ => true
  | .waitEntryDue _ => true
  | .followExpiry _ => true
  | .fadeEnd target _ => decide (target ≤ 788)
  | .latchInstant w k => decide (w ≤ 3) && decide (k ≤ 7)
  | .chainEcho c _ => decide (c ≤ 7)
  | .zoneComplete z => decide (z ≤ 7)
  | .dramAccessGrant a => a.wf
  | .burstGrant a => a.wf
  | .waitingRequestAccept => true
  | .regionRemoval => true
  | .readProceeds => true
  | .contentReadGrant a => a.wf
  | .inputFrameStart => true
  | .lineStrobe => true
  | .inputFrameComplete => true
  | .feedLost _ => true
  | .setCamera _ q =>
    fits1 q.camera && fitsIf fits2 q.phase && fitsIf fits1 q.preferred && fitsIf fits1 q.source &&
      fitsIf fits1 q.polarity
  | .setIdlePhase _ p => fits2 p
  | .setSlew _ l => fits2 l
  | .tally _ c s => fits1 c && fits1 s
  | .readPhase _ => true
  | .defineRegion _ q =>
    fits1 q.id && fits1 q.kind && fits4 q.base && fits2 q.width && fits2 q.height && fitsIf fits1 q.protect
  | .deleteRegion _ i => fits1 i
  | .readRegion _ i => fits1 i
  | .readMemory _ => true
  | .setShowLock _ => true
  | .writeContent _ q => fits1 q.region && fits3 q.offset && decide (q.pixels.length ≤ 255)
  | .fillRegion _ q => fits1 q.region && q.rect.fits && q.colour.fits
  | .readContent _ q => fits1 q.region && fits3 q.offset && fits1 q.count
  | .readPosting _ => true
  | .setLiveInput _ r => fitsIf named1 r
  | .readLive _ => true
  | .defineWall _ q => fits1 q.wall && fits2 q.width && fits2 q.height && fits1 q.refresh && q.background.fits
  | .deleteWall _ w => fits1 w
  | .setLayer _ q =>
    fits1 q.wall && fits1 q.layer && fitsIf named1 q.source && q.rect.fits && fitsSigned q.px && fitsSigned q.py
  | .setWallMode _ q => fits1 q.wall && fits1 q.mode && fits1 q.pattern && q.colour.fits
  | .setTile _ q =>
    fits1 q.tile && fits1 q.wall && fits1 q.chain && fits1 q.position && q.rect.fits && fits1 q.orientation
  | .removeTile _ i => fits1 i
  | .setCorrection _ q =>
    fits1 q.tile && fitsIf fits2 q.gainR && fitsIf fits2 q.gainG && fitsIf fits2 q.gainB && fitsIf fits2 q.offset &&
      fitsIf fits2 q.clip
  | .defineZone _ q => fits1 q.zone && fitsIf named1 q.wall && q.rect.fits
  | .readWall _ w => fits1 w
  | .readZone _ z => fits1 z
  | .storeCue _ q =>
    fits2 q.cue && fits1 q.trigger && fits2 q.arg && decide (q.actions.length ≤ 255) && wfActions q.actions
  | .deleteCue _ c => fits2 c
  | .standby _ c => fits2 c
  | .go _ => true
  | .goCue _ c => fits2 c
  | .cancelGo _ => true
  | .hold _ => true
  | .release _ => true
  | .stepFrames _ n => fits2 n
  | .readCue _ c s => fits2 c && fits1 s
  | .readCueState _ => true
  | .setCurve _ c l => fits1 c && decide (l.length = 15) && l.all fits2
  | .fade _ q => fits2 q.target && fits2 q.level && fits2 q.duration && fits1 q.curve
  | .setChannel _ q =>
    fits2 q.first && fits1 q.count && fits1 q.mode && fits1 q.zone && fits1 q.component && fits2 q.gain &&
      fits2 q.smoothing
  | .readLevels _ q => fits1 q.view && fits2 q.first && fits1 q.count
  | .setBus _ q => fits1 q.port && fits1 q.enable && fitsIf fits1 q.rate
  | .setFilter _ q => fits1 q.port && fits1 q.filter && fits2 q.value && fits2 q.mask && fits1 q.enabled
  | .defineFixture _ q =>
    fits1 q.id && fits1 q.port && fits2 q.address && fits2 q.first && fits1 q.count && fitsIf fits1 q.keepAlive &&
      fitsIf fits2 q.silence
  | .deleteFixture _ i => fits1 i
  | .readBus _ p => fits1 p
  | .readFixture _ i s => fits1 i && fitsIf fits1 s
  | .setDimmer _ q =>
    fits1 q.output && fitsIf named2 (q.channel.getD none) && fitsIf fits2 q.divisor && fitsIf fits2 q.minWidth &&
      fitsIf fits1 q.polarity
  | .readDimmer _ o => fitsIf named1 o
  | .portJoined _ => true
  | .portRecovered _ => true
  | .sendStart _ _ => true
  | .lostArbitration _ => true
  | .sendSuccess _ => true
  | .validReception _ _ => true
  | .busError _ e => decide (e.endBit ≤ 7) && (decide (e.kind = .form) || decide (e.endBit = 0))
  | .keepAliveExpiry f _ => decide (f ≤ 191)
  | .silenceLimit f _ => decide (f ≤ 191)
  | .dimmerPeriodStart o j => decide (o ≤ 15) && decide (j ≤ 63)
  | .dimmerPulseEnd o => decide (o ≤ 15)
  | .inputPixel _ _ _ => true
  | .quietPeriod _ => true

end Sys2Proof
end

