-- ==== Sys2Proof/Safety.lean ====
section
/-! DEFINITION. The terms in which statements about the part are made: when the Link Dispatcher takes a request, what a
state is like after a reply, and the invariants that every step keeps. -/

namespace Sys2Proof.Machine

/-! ## Requests -/

/-- R173: the Link Dispatcher takes request `i` now, with `rest` behind it: no reply is withheld, and the queue is empty
or has the request at its head. -/
def State.takes (s : State) (i : Instr) (rest : List QueuedRequest) : Prop :=
  s.lkd.hold = .free ∧ (s.lkd.requests = [] ∧ rest = [] ∨ s.lkd.requests = .command i :: rest)

/-- The state with a reply of request kind `kind` put behind what is ready, and `rest` as the request queue (R173,
R174). -/
def State.answered (s : State) (tag kind : Byte) (st : Status) (fields : List Field) (rest : List QueuedRequest) :
    State :=
  s.setLkd { s.lkd with
    ready := s.lkd.ready ++ [.reply ⟨tag, replyKind kind, st, fields⟩], requests := rest }

/-- The state with a reply added that was formed when `ready` held `before` frames (R174, log 15). -/
def State.repliedFrom (s : State) (before : Nat) (tag kind : Byte) (st : Status) (fields : List Field)
    (rest : List QueuedRequest) : State :=
  s.setLkd { s.lkd.addReply before ⟨tag, replyKind kind, st, fields⟩ with requests := rest }

/-! ## Invariants -/

/-- Every queue and table of the part keeps within the size that the manual gives it (R51, R53, R120, R124, R132, R138,
R161, R172, R176). -/
def State.bounded (s : State) : Prop :=
  s.lkd.requests.length ≤ 4 ∧ noticeCount s.lkd.ready ≤ 32 ∧ s.lkd.dropped ≤ 65535 ∧ s.lkd.linkErrors ≤ 65535 ∧
    s.fsc.posting.length ≤ 8 ∧ s.cue.waits.length ≤ 128 ∧ s.cue.active.length ≤ 16 ∧ s.lvp.fades.length ≤ 256 ∧
    s.lvp.manual.length ≤ 32 ∧ s.fbc.portA.queue.length ≤ 32 ∧ s.fbc.portB.queue.length ≤ 32

/-- Every table of numbered records is in canonical form: its numbers rise. -/
def State.tablesWf (s : State) : Prop :=
  Table.wf s.fsc.regions = true ∧ Table.wf s.wse.walls = true ∧ Table.wf s.wse.tiles = true ∧
    Table.wf s.wse.frameTiles = true ∧ Table.wf s.wse.zones = true ∧ Table.wf s.cue.cues = true ∧
    Table.wf s.lvp.fades = true ∧ Table.wf s.fbc.fixtures = true

/-- The DRAM is in canonical form. -/
def State.memoryWf (s : State) : Prop := Memory.wf s.fsc.mem = true

/-- The settings and phases of the Camera Phase Unit lie on the circle of 1024 phase units, and the slew limit in
1..1024 (chapter 2). -/
def State.phasesInRange (s : State) : Prop :=
  s.cph.phase < 1024 ∧ s.cph.target < 1024 ∧ s.cph.idlePhase < 1024 ∧ 1 ≤ s.cph.slewLimit ∧ s.cph.slewLimit ≤ 1024 ∧
    ∀ c ∈ s.cph.cameras.toList, c.phase < 1024

/-- The show lock keeps out a full reset over the link (R47): while it is set no such reset is under way. -/
def State.lockHolds (s : State) : Prop :=
  s.fsc.showLock = true → s.lkd.hold ≠ .resetReply .full ∧ s.lkd.hold ≠ .resetDue .full

/-- The fixture bus port obeys R154: once it has joined, its state is the one that its counts give; TXE reaches at most
199 and RXE 255; and its queue holds at most 32 entries (R161). -/
def BusPort.settled (b : BusPort) : Prop :=
  (b.state.onLine = true ∨ b.state = .detached → b.state = stateOfCounts b.txe b.rxe) ∧ b.txe ≤ 199 ∧ b.rxe ≤ 255 ∧
    b.queue.length ≤ 32

def State.portsSettled (s : State) : Prop := s.fbc.portA.settled ∧ s.fbc.portB.settled

/-- The live input's writer buffer is one of the three, is never latched by any layer (R72), and is not the newest; with
no region bound the port is OFF and there is no writer and no newest (R66). -/
def State.writerFree (s : State) : Prop :=
  (s.lip.port = .off ↔ s.lip.bound = none) ∧ (s.lip.bound = none → s.lip.writer = none ∧ s.lip.newest = none) ∧
    ∀ w, s.lip.writer = some w → w ≤ 2 ∧ s.lip.latched w = false ∧ s.lip.newest ≠ some w

/-- Every region, and every region record that the frame in progress still shows, lies on pages that exist; before the
store is READY there is none, and while it is being sized no rank has pages yet (R33, R34, R37). -/
def State.storeSound (s : State) : Prop :=
  (s.fsc.store ≠ .ready → s.fsc.regions = []) ∧
    (s.fsc.store = .sizing → ∀ r ∈ s.fsc.ranks.toList, r.base = none ∧ r.pages = 0) ∧
    (s.fsc.store = .ready → ∀ p, p < s.fsc.pageTotal → (s.fsc.physPage p).isSome = true) ∧
    (∀ e ∈ s.fsc.regions, s.fsc.store = .ready ∧ e.2.base + e.2.pages ≤ s.fsc.pageTotal) ∧
    ∀ e ∈ s.wse.walls, ∀ f, e.2.frame = some f → ∀ l ∈ f.layers.toList, ∀ r, l.region = some r →
      s.fsc.store = .ready ∧ r.base + r.pages ≤ s.fsc.pageTotal

/-- R39: how many layers of the wall name region `id` as their current source, and, while it is frozen, of its held
layers. -/
def Wall.airNames (id : Nat) (x : Wall) : Nat :=
  x.layers.toList.countP (fun l => decide (l.source = some id)) +
    match x.held with
    | none => 0
    | some h => h.layers.toList.countP (fun l => decide (l.layer.source = some id))

/-- R40: how many layers and held layers of all walls name region `id`. -/
def State.airNames (s : State) (id : Nat) : Nat := (s.wse.walls.map (fun e => e.2.airNames id)).sum

/-- R40: how many stored cue actions and wait entries name region `id`. -/
def State.refNames (s : State) (id : Nat) : Nat :=
  (s.cue.cues.map (fun e => e.2.actions.countP (fun a => decide (a.action.region = some id)))).sum +
    s.cue.waits.countP (fun e => decide (e.action.region = some id))

/-- R41: how many entries of the posting buffer name region `id`. -/
def State.postedNames (s : State) (id : Nat) : Nat := s.fsc.posting.countP (fun e => decide (e.region = id))

/-- A layer source action names a layer that a wall has (R110). -/
def Action.layerInRange : Action → Bool
  | .layerSource _ layer _ _ _ _ => decide (1 ≤ layer) && decide (layer ≤ 4)
  | _ => true

/-- R39 to R41: the three counts of every region are the numbers of what names it, and nothing names a region that is
not defined. With it what keeps them so: a wall holds parameters while it is in FREEZE and at no other time (R83, R85);
the layers that stored and waiting actions name are layers of a wall (R110); and while a deletion waits for its entries,
no layer and no action names its region (R42). -/
def State.countsHold (s : State) : Prop :=
  s.tablesWf ∧
    (∀ id,
      ((s.region id).map (·.air)).getD 0 = s.airNames id ∧ ((s.region id).map (·.ref)).getD 0 = s.refNames id ∧
        ((s.region id).map (·.posted)).getD 0 = s.postedNames id) ∧
    (∀ e ∈ s.wse.walls, e.2.mode = .freeze ↔ e.2.held ≠ none) ∧
    (∀ e ∈ s.cue.cues, ∀ a ∈ e.2.actions, a.action.layerInRange = true) ∧
    (∀ e ∈ s.cue.waits, e.action.layerInRange = true) ∧
    (s.lkd.hold = .drain →
      ∃ tag id rest, s.lkd.requests = .command (.deleteRegion tag id) :: rest ∧ s.airNames id = 0 ∧ s.refNames id = 0)

/-- What a frame boundary does not reach: DRAM, the posting buffer, the ranks, the store state and the show lock; the
receiver, the request queue, the notice mask and the link error count; and the commands waiting. -/
def State.boundaryKeeps (s t : State) : Prop :=
  t.fsc.mem = s.fsc.mem ∧ t.fsc.posting = s.fsc.posting ∧ t.fsc.ranks = s.fsc.ranks ∧ t.fsc.store = s.fsc.store ∧
    t.fsc.showLock = s.fsc.showLock ∧ t.lkd.rx = s.lkd.rx ∧ t.lkd.requests = s.lkd.requests ∧
    t.lkd.hold = s.lkd.hold ∧ t.lkd.mask = s.lkd.mask ∧ t.lkd.linkErrors = s.lkd.linkErrors ∧ t.pending = s.pending

/-- R90: what becomes of the eight chains when the tile map of `s` turns into that of `t`: a chain that gets its first
tile becomes OK, one that loses its last becomes IDLE, one whose tiles change otherwise keeps its state, each with both
counts 0; any other chain is as it was. -/
def State.chainsFollow (s t : State) : Prop :=
  ∀ c, c < 8 →
    let before := tileCount c s.wse.tiles
    let after := tileCount c t.wse.tiles
    let kept := chainTiles c s.wse.tiles = chainTiles c t.wse.tiles
    (before = 0 → after = 0 → (t.chain c).state = (s.chain c).state) ∧
    (before = 0 → 0 < after → (t.chain c).state = .ok ∧ (t.chain c).misses = 0 ∧ (t.chain c).echoes = 0) ∧
    (0 < before → after = 0 → (t.chain c).state = .idle ∧ (t.chain c).misses = 0 ∧ (t.chain c).echoes = 0) ∧
    (0 < before → 0 < after → (t.chain c).state = (s.chain c).state ∧
      (kept → (t.chain c).misses = (s.chain c).misses ∧ (t.chain c).echoes = (s.chain c).echoes) ∧
      (¬kept → (t.chain c).misses = 0 ∧ (t.chain c).echoes = 0))

/-- The requests that only read, by kind (R17, R30, R44, R45, R63, R74, R94, R107, R128, R129, R145, R163, R169,
R177). -/
def readKinds : List Nat :=
  [0x01, 0x02, 0x11, 0x18, 0x22, 0x23, 0x28, 0x2A, 0x38, 0x39, 0x49, 0x4A, 0x53, 0x64, 0x65, 0x71]

/-- A request that only reads finds what it names, so that it is answered OK. -/
def State.answersRead (s : State) : Instr → Prop
  | .readRegion _ id => s.fsc.store = .ready ∧ id ≤ 63 ∧ s.region id ≠ none
  | .readWall _ w => w ≤ 3 ∧ s.wall w ≠ none
  | .readZone _ z => z ≤ 7 ∧ s.wse.zones.find z ≠ none
  | .readCue _ n search =>
    search ≠ 1 ∧ n ≠ 0 ∧ s.cue.cues.find n ≠ none ∨ search = 1 ∧ ∃ e ∈ s.cue.cues, n ≤ e.1
  | .readLevels _ q =>
    q.view = 0 ∧ q.first ≤ 767 ∧ 1 ≤ q.count ∧ q.count ≤ 64 ∧ q.first + q.count ≤ 768 ∨ q.view = 1 ∨ q.view = 2
  | .readBus _ port => port ≤ 1
  | .readFixture _ id search =>
    search ≠ some 1 ∧ id ≤ 191 ∧ s.fbc.fixtures.find id ≠ none ∨ search = some 1 ∧ ∃ e ∈ s.fbc.fixtures, id ≤ e.1
  | .readDimmer _ output => ∀ o, output = some o → o ≤ 15
  | _ => True

/-- The requests that the show lock refuses (R47). -/
def lockRefused : Instr → Bool
  | .setReference _ _ | .setCamera _ _ | .setIdlePhase _ _ | .setSlew _ _ | .defineRegion _ _ | .deleteRegion _ _
  | .setLiveInput _ _ | .defineWall _ _ | .deleteWall _ _ | .setTile _ _ | .removeTile _ _ | .defineZone _ _
  | .setCorrection _ _ | .setCurve _ _ _ | .setChannel _ _ | .setBus _ _ | .setFilter _ _ | .defineFixture _ _
  | .deleteFixture _ _ | .setDimmer _ _ => true
  | .reset _ scope => decide (scope = 1)
  | _ => false

end Sys2Proof.Machine
end

