-- ==== Sys2Proof/Laws/Link.lean ====
section
/-! SUPPORT. The Link Dispatcher's operations, each with one lemma that says everything it can do: raising a notice,
forming a reply, serving a request. -/

namespace Sys2Proof.Machine

/-! ## Notices, R175 and R176 -/

theorem noticeCount_append (l : List OutFrame) (f : OutFrame) :
    noticeCount (l ++ [f]) = noticeCount l + (if f.isNotice then 1 else 0) := by
  simp [noticeCount, List.countP_append, List.countP_cons]

/-- What raising a notice can do: masked, it does nothing; otherwise a NOTICES_DROPPED may enter first, and then the
notice enters or is counted as dropped. -/
theorem Lkd.raise_cases (l : Lkd) (n : Notice) :
    l.raise n = l ∧ l.mask.passes n.kind = false ∨
    (∃ m, (m = l ∧ ¬(0 < l.dropped ∧ noticeCount l.ready < 32) ∨
        m = { l with ready := l.ready ++ [.notice ⟨.noticesDropped, n.counter, [.u2 l.dropped]⟩], dropped := 0 } ∧
          0 < l.dropped ∧ noticeCount l.ready < 32) ∧
      (l.raise n = { m with ready := m.ready ++ [.notice n] } ∧ noticeCount m.ready < 32 ∨
        l.raise n = { m with dropped := satAdd 65535 m.dropped 1 } ∧ 32 ≤ noticeCount m.ready)) := by
  unfold Lkd.raise
  by_cases hp : l.mask.passes n.kind = true
  · right
    refine ⟨l.reportDropped n.counter, ?_, ?_⟩
    · unfold Lkd.reportDropped
      split
      · rename_i h; exact .inr ⟨rfl, h⟩
      · rename_i h; exact .inl ⟨rfl, h⟩
    · rw [if_pos hp]
      unfold Lkd.enter
      split
      · rename_i h; exact .inl ⟨rfl, h⟩
      · rename_i h; exact .inr ⟨rfl, by omega⟩
  · left
    simp only [Bool.not_eq_true] at hp
    simp [hp]

/-- Raising a notice changes nothing of the Link Dispatcher but what is ready and the dropped count. -/
theorem Lkd.raise_keeps {α : Type} (p : Lkd → α) (h : ∀ l r d, p { l with ready := r, dropped := d } = p l) (l : Lkd)
    (n : Notice) : p (l.raise n) = p l := by
  rcases l.raise_cases n with ⟨e, -⟩ | ⟨m, hm, he⟩
  · rw [e]
  · have hm' : p m = p l := by
      rcases hm with ⟨e, -⟩ | ⟨e, -⟩
      · rw [e]
      · rw [e]; exact h _ _ _
    rcases he with ⟨e, -⟩ | ⟨e, -⟩
    · rw [e, ← hm']; exact h m _ m.dropped
    · rw [e, ← hm']; exact h m m.ready _

/-- The notice queue never grows past 32, and the dropped count stops at 65535. -/
theorem Lkd.raise_bounded (l : Lkd) (n : Notice) (h : noticeCount l.ready ≤ 32) (hd : l.dropped ≤ 65535) :
    noticeCount (l.raise n).ready ≤ 32 ∧ (l.raise n).dropped ≤ 65535 := by
  rcases l.raise_cases n with ⟨e, -⟩ | ⟨m, hm, he⟩
  · rw [e]; exact ⟨h, hd⟩
  · have hm' : noticeCount m.ready ≤ 32 ∧ m.dropped ≤ 65535 := by
      rcases hm with ⟨e, -⟩ | ⟨e, -, hlt⟩
      · rw [e]; exact ⟨h, hd⟩
      · rw [e]
        refine ⟨?_, by simp⟩
        show noticeCount (l.ready ++ [_]) ≤ 32
        rw [noticeCount_append]
        simp only [OutFrame.isNotice, if_true]
        omega
    rcases he with ⟨e, hlt⟩ | ⟨e, -⟩
    · rw [e]
      refine ⟨?_, hm'.2⟩
      show noticeCount (m.ready ++ [_]) ≤ 32
      rw [noticeCount_append]
      simp only [OutFrame.isNotice, if_true]
      omega
    · rw [e]; exact ⟨hm'.1, by simp only [satAdd]; omega⟩

/-! ## Replies, R172 to R174 -/

/-- A reply formed with no notice of the same moment goes behind what is ready. -/
theorem Lkd.addReply_same (l : Lkd) (r : Reply) : l.addReply l.ready.length r = { l with ready := l.ready ++ [.reply
    r] } := by
  simp [Lkd.addReply]

/-- A reply changes nothing of the Link Dispatcher but what is ready and the model's count of free choices. -/
theorem Lkd.addReply_keeps {α : Type} (p : Lkd → α) (h : ∀ l r c, p { l with ready := r, choice := c } = p l) (l : Lkd)
    (before : Nat) (r : Reply) : p (l.addReply before r) = p l := by
  unfold Lkd.addReply
  split
  · exact h l _ l.choice
  · exact h l _ _

/-- A reply is no notice: it takes no place in the notice queue (R174). -/
theorem Lkd.addReply_noticeCount (l : Lkd) (before : Nat) (r : Reply) :
    noticeCount (l.addReply before r).ready = noticeCount l.ready := by
  have take_drop (place : Nat) :
      noticeCount (l.ready.take place ++ .reply r :: l.ready.drop place) = noticeCount l.ready := by
    have cut := congrArg noticeCount (List.take_append_drop place l.ready)
    simp only [noticeCount, List.countP_append, List.countP_cons, OutFrame.isNotice] at cut ⊢
    simpa using cut
  unfold Lkd.addReply
  split
  · simp [noticeCount_append, OutFrame.isNotice]
  · exact take_drop _

/-- A request that the Link Dispatcher takes is carried out. -/
theorem serve_takes (cmd : Instr) (tag kind : Byte) (handle : State → Answer) (rest : List QueuedRequest) (s : State)
    (h : s.takes cmd rest) : serve cmd tag kind handle s = carryOut cmd tag kind handle rest s := by
  obtain ⟨h1, ⟨h2, rfl⟩ | h2⟩ := h
  · simp only [serve, h1, h2]
  · simp only [serve, h1, h2, if_true]

/-- A request that is not taken joins the tail of the queue, or is answered BUSY (R172). -/
theorem serve_waits (cmd : Instr) (tag kind : Byte) (handle : State → Answer) (s : State)
    (h : ∀ rest, ¬s.takes cmd rest) : serve cmd tag kind handle s = joinQueue (.command cmd) tag kind s := by
  unfold serve
  split
  · rename_i hf
    split
    · rename_i hr; exact absurd ⟨hf, .inl ⟨hr, rfl⟩⟩ (h [])
    · rename_i q rest hr
      split
      · rename_i hq; subst hq; exact absurd ⟨hf, .inr hr⟩ (h rest)
      · rfl
  · rfl

/-- A request taken whose block answers with a reply and raises no notice. -/
theorem serve_reply (cmd : Instr) (tag kind : Byte) (handle : State → Answer) (rest : List QueuedRequest) (s t : State)
    (st : Status) (fields : List Field) (h : s.takes cmd rest)
    (ha : handle (s.setLkd { s.lkd with requests := .command cmd :: rest }) = .reply st fields t)
    (hr : t.lkd.ready = s.lkd.ready) : serve cmd tag kind handle s = t.answered tag kind st fields rest := by
  rw [serve_takes cmd tag kind handle rest s h]
  simp only [carryOut, ha]
  rw [← hr, Lkd.addReply_same]
  rfl

/-- A request taken whose block answers with a reply, whatever notices it raises. -/
theorem serve_replyFrom (cmd : Instr) (tag kind : Byte) (handle : State → Answer) (rest : List QueuedRequest)
    (s t : State) (st : Status) (fields : List Field) (h : s.takes cmd rest)
    (ha : handle (s.setLkd { s.lkd with requests := .command cmd :: rest }) = .reply st fields t) :
    serve cmd tag kind handle s = t.repliedFrom s.lkd.ready.length tag kind st fields rest := by
  rw [serve_takes cmd tag kind handle rest s h]
  simp only [carryOut, ha]
  rfl

/-- A request taken whose reply its block withholds. -/
theorem serve_withhold (cmd : Instr) (tag kind : Byte) (handle : State → Answer) (rest : List QueuedRequest)
    (s t : State) (hold : Hold) (h : s.takes cmd rest)
    (ha : handle (s.setLkd { s.lkd with requests := .command cmd :: rest }) = .withhold hold t) :
    serve cmd tag kind handle s = t.setLkd { t.lkd with hold := hold } := by
  rw [serve_takes cmd tag kind handle rest s h]
  simp only [carryOut, ha]

/-- Checks made in order: all pass, or the first that fails gives the status. -/
theorem checked_ok (checks : List (Bool × Status)) (s : State) (ok : Answer) (h : ∀ c ∈ checks, c.1 = false) :
    checked checks s ok = ok := by
  have : firstFailing checks = none := by
    induction checks with
    | nil => rfl
    | cons c rest ih =>
      obtain ⟨b, st⟩ := c
      have hb : b = false := h (b, st) (by simp)
      subst hb
      simpa [firstFailing] using ih (fun c hc => h c (List.mem_cons_of_mem _ hc))
  simp only [checked, this]

/-- The state in which a block handles a request: `cmd` at the head of the request queue, `rest` behind it. -/
def State.atHead (s : State) (cmd : Instr) (rest : List QueuedRequest) : State :=
  s.setLkd { s.lkd with requests := .command cmd :: rest }

section AtHead

variable (s : State) (cmd : Instr) (rest : List QueuedRequest)

@[simp] theorem State.atHead_rtu : (s.atHead cmd rest).rtu = s.rtu := rfl
@[simp] theorem State.atHead_cph : (s.atHead cmd rest).cph = s.cph := rfl
@[simp] theorem State.atHead_fsc : (s.atHead cmd rest).fsc = s.fsc := rfl
@[simp] theorem State.atHead_lip : (s.atHead cmd rest).lip = s.lip := rfl
@[simp] theorem State.atHead_wse : (s.atHead cmd rest).wse = s.wse := rfl
@[simp] theorem State.atHead_cue : (s.atHead cmd rest).cue = s.cue := rfl
@[simp] theorem State.atHead_lvp : (s.atHead cmd rest).lvp = s.lvp := rfl
@[simp] theorem State.atHead_fbc : (s.atHead cmd rest).fbc = s.fbc := rfl
@[simp] theorem State.atHead_dou : (s.atHead cmd rest).dou = s.dou := rfl
@[simp] theorem State.atHead_ready : (s.atHead cmd rest).lkd.ready = s.lkd.ready := rfl
@[simp] theorem State.atHead_region (id : Nat) : (s.atHead cmd rest).region id = s.region id := rfl
@[simp] theorem State.atHead_wall (w : Nat) : (s.atHead cmd rest).wall w = s.wall w := rfl
@[simp] theorem State.atHead_port (p : Port) : (s.atHead cmd rest).port p = s.port p := rfl
@[simp] theorem State.atHead_level (t : Nat) : (s.atHead cmd rest).level t = s.level t := rfl
@[simp] theorem State.atHead_channel (c : Nat) : (s.atHead cmd rest).channel c = s.channel c := rfl
@[simp] theorem State.atHead_dimmer (o : Nat) : (s.atHead cmd rest).dimmer o = s.dimmer o := rfl
@[simp] theorem State.atHead_isBound (id : Nat) : (s.atHead cmd rest).isBound id = s.isBound id := rfl
@[simp] theorem State.atHead_counterField : (s.atHead cmd rest).counterField = s.counterField := rfl

end AtHead

/-- What serving a request that the Link Dispatcher takes comes to, by the answer of its block. -/
theorem serve_taken (cmd : Instr) (tag kind : Byte) (handle : State → Answer) (rest : List QueuedRequest) (s : State)
    (h : s.takes cmd rest) :
    serve cmd tag kind handle s =
      match handle (s.atHead cmd rest) with
      | .reply st fields t => t.repliedFrom s.lkd.ready.length tag kind st fields rest
      | .withhold hold t => t.setLkd { t.lkd with hold := hold } := by
  rw [serve_takes cmd tag kind handle rest s h]
  rfl

/-- With no notice raised on the way, the reply goes behind what is ready. -/
theorem State.repliedFrom_answered (t : State) (n : Nat) (tag kind : Byte) (st : Status) (fields : List Field)
    (rest : List QueuedRequest) (h : t.lkd.ready.length = n) :
    t.repliedFrom n tag kind st fields rest = t.answered tag kind st fields rest := by
  subst h
  unfold State.repliedFrom State.answered
  rw [Lkd.addReply_same]

/-- A refused request is answered with its status alone, and nothing else changes. -/
theorem serve_refused (cmd : Instr) (tag kind : Byte) (handle : State → Answer) (rest : List QueuedRequest) (s : State)
    (st : Status) (h : s.takes cmd rest) (ha : handle (s.atHead cmd rest) = refuse st (s.atHead cmd rest)) :
    serve cmd tag kind handle s = s.answered tag kind st [] rest := by
  rw [serve_taken cmd tag kind handle rest s h, ha]
  exact State.repliedFrom_answered _ _ _ _ _ _ _ rfl

/-- A request carried out with no notice raised. -/
theorem serve_ok (cmd : Instr) (tag kind : Byte) (handle : State → Answer) (rest : List QueuedRequest) (s t : State)
    (fields : List Field) (h : s.takes cmd rest) (ha : handle (s.atHead cmd rest) = .reply .ok fields t)
    (hr : t.lkd.ready.length = s.lkd.ready.length) :
    serve cmd tag kind handle s = t.answered tag kind .ok fields rest := by
  rw [serve_taken cmd tag kind handle rest s h, ha]
  exact State.repliedFrom_answered _ _ _ _ _ _ _ hr

/-! ## Characters, R170 -/

/-- A character sent is the byte received, with no error. -/
theorem LineChar.read_charBits (gap : Bool) (b : Byte) : LineChar.read ⟨gap, charBits b⟩ = ⟨b, gap, false⟩ := by
  have h : ∀ n : Fin 256, LineChar.read ⟨false, charBits ⟨n⟩⟩ = ⟨⟨n⟩, false, false⟩ := by decide +kernel
  have hb := h b.toFin
  simp only [LineChar.read, RxChar.mk.injEq] at hb ⊢
  exact ⟨hb.1, trivial, hb.2.2⟩

end Sys2Proof.Machine
end

