-- ==== Sys2Proof/Certificates/Slice0/Obligations.lean ====
section
/-! DEFINITION. The statements for the provers. Each docstring names the rules of the manual that its statement rests
on; where it rests on a choice of the model it names the log entry. -/

open Sys2Proof Sys2Proof.Machine

/-! ## The command queue and the whole machine -/

/-- Every command at the front of the queue is carried out by one step, with the rest of the queue behind it. -/
def Obligations.StepRunsFrontCommand : Prop :=
  ∀ (c : Instr) (rest : List Instr) (s : State), s.pending = c :: rest → step s = exec c { s with pending := rest }

/-- With no command waiting the part does the first work of its own that is due, and idles if none is (the model's
choice: log 2). A request of the wrong length is answered LENGTH (R173, check 2). -/
def Obligations.StepWithNoCommand : Prop :=
  ∀ s : State, s.pending = [] →
    (s.nextWork = none → step s = .next s) ∧
    (∀ i, s.nextWork = some (.command i) → step s = exec i s) ∧
    (∀ tag kind, s.nextWork = some (.badLength tag kind) →
      step s = .next (s.answered tag kind .length [] s.lkd.requests.tail))

/-- What reset leaves where the manual gives the value (R18, R31, R32, R47, R50, R64, R75, R95, R108, R130, R146, R164,
R169, R180); and every invariant that a step keeps holds right after reset. -/
def Obligations.ResetValues : Prop :=
  let s := State.reset
  (s.rtu.mode = .lock ∧ s.rtu.standard = .fps5994 ∧ s.rtu.fieldMode = .progressive ∧ s.rtu.polarity = .normal ∧
    s.rtu.holdoverLimit = 50 ∧ s.rtu.gen = .freerun ∧ s.rtu.counter = 0 ∧ s.rtu.tick = 0 ∧ s.rtu.period = 16683333 ∧
    s.rtu.lastMeasured = 0 ∧ s.rtu.lastSlip = 0 ∧ s.rtu.acqCount = 0 ∧ s.rtu.holdoverCount = 0 ∧ s.rtu.gapCount = 0 ∧
    s.rtu.acqOrigin = .freerun ∧ s.rtu.warned = false ∧ s.rtu.prevStart = none ∧ s.rtu.lastLine = none) ∧
  ((∀ c ∈ s.cph.cameras.toList, c = ⟨0, false, .line, .activeLow, false, false⟩) ∧ s.cph.idlePhase = 0 ∧
    s.cph.slewLimit = 16 ∧ s.cph.winner = none ∧ s.cph.target = 0 ∧ s.cph.phase = 0) ∧
  (s.fsc.store = .sizing ∧ s.fsc.pageTotal = 0 ∧ s.fsc.regions = [] ∧ s.fsc.showLock = false ∧ s.fsc.posting = [] ∧
    s.fsc.discards = 0 ∧ s.fsc.lastDiscard = none ∧ ∀ r ∈ s.fsc.ranks.toList, r.state = .unknown ∧ r.pages = 0) ∧
  (s.lip.bound = none ∧ s.lip.port = .off ∧ s.lip.writer = none ∧ s.lip.newest = none ∧ s.lip.shown = false ∧
    (∀ e ∈ s.lip.latch.toList, e = none) ∧ s.lip.capture.phase = .idle) ∧
  (s.wse.walls = [] ∧ s.wse.tiles = [] ∧ s.wse.zones = [] ∧
    ∀ c ∈ s.wse.chains.toList, c.state = .idle ∧ c.misses = 0 ∧ c.echoes = 0 ∧ c.out = []) ∧
  (s.cue.cues = [] ∧ s.cue.standby = none ∧ s.cue.pending = none ∧ s.cue.recent = none ∧ s.cue.hold = false ∧
    s.cue.step = none ∧ s.cue.waits = [] ∧ s.cue.active = [] ∧ s.cue.follow = none ∧ s.cue.waitOverflow = false) ∧
  (s.lvp.fades = [] ∧ s.lvp.manual = [] ∧ s.lvp.fadeOverflow = false ∧ s.level 767 = 0 ∧ s.level 768 = 65535 ∧
    s.level 788 = 65535) ∧
  (s.fbc.fixtures = [] ∧ ∀ p, (s.port p).enabled = false ∧ (s.port p).rate = 250 ∧ (s.port p).state = .off ∧
    (s.port p).lastAdmitted = 191 ∧ (s.port p).queue = []) ∧
  (∀ d ∈ s.dou.outputs.toList, d.setting = ⟨none, 1, 0, .activeHigh⟩ ∧ d.pending = none ∧ d.active = false) ∧
  (s.lkd.rx = .hunting ∧ s.lkd.requests = [] ∧ s.lkd.ready = [] ∧ s.lkd.mask = ⟨true, true, true, true, true, true⟩ ∧
    s.lkd.dropped = 0 ∧ s.lkd.linkErrors = 0) ∧
  (s.memoryWf ∧ s.tablesWf ∧ s.bounded ∧ s.phasesInRange ∧ s.writerFree ∧ s.portsSettled ∧ s.storeSound ∧
    s.lockHolds ∧ s.countsHold)

/-- Power-on, the reset pin and an accepted RESET with scope FULL all put every block at its reset values (R18, R31,
R32, R47, R50, R64, R75, R95, R108, R130, R146, R164, R169, R180) and sample the straps (R170). What stands in DRAM is
left, but for the pixels that an access cut short by the reset had written (how many is an operand, log 14; POWER_ON
keeps DRAM, log 26; a frame being sent when the reset pin acts is cut off where it stood, after as many bits as the
operand says, log 16; a reset during sizing leaves the word under test, log 39); the clock and the pins go on (log 4,
5), onTime, acqStarted and acqPrev take the model's reset values (log 17), and replies that were formed and not yet sent
are dropped with the two queues (log 46). Then the rank positions are sized one after the other (R33): the record is
what the outcome says, the others stay as they are, a FAILED rank raises RANK_FAULT, and the next position follows;
after position 3 the page space is formed (R34): each PRESENT rank begins where the ones before it end, the page total
is the sum, the store is READY or, with no page, NO_MEMORY, and STORE_READY is raised. The fields of the two notices are
laid out as log 24 and 34 say. -/
def Obligations.FullResetAndSizing : Prop :=
  (∀ (c : Instr) (r : ResetIn) (s : State),
     (c = .powerOn r ∨ c = .resetPin r ∨ c = .fullReset r ∧ s.lkd.hold = .resetDue .full) →
     ∃ t, exec c s = .next t ∧
       t.rtu = { Rtu.reset with now := s.rtu.now, baseTime := s.rtu.now } ∧
       t.cph = { Cph.reset with lines := s.cph.lines } ∧ t.fsc = { Fsc.reset with mem := t.fsc.mem } ∧
       t.lip = Lip.reset ∧ t.wse = Wse.reset ∧ t.cue = CueEngine.reset ∧ t.lvp = Lvp.reset ∧ t.fbc = Fbc.reset ∧
       t.dou = Dou.reset ∧
       t.lkd = { Lkd.reset with
         straps := r.straps, choice := s.lkd.choice, sent := t.lkd.sent, sentCut := t.lkd.sentCut } ∧
       (c ≠ .resetPin r ∨ r.sending = none ∨ s.lkd.sent = none ∨ s.lkd.sentCut ≠ none →
         t.lkd.sent = none ∧ t.lkd.sentCut = none) ∧
       (∀ n f, c = .resetPin r → r.sending = some n → s.lkd.sent = some f → s.lkd.sentCut = none →
         (n < f.lineBits.length →
           t.lkd.sent = some f ∧ t.lkd.lineBits = f.lineBits.take n ∧ t.lkd.lineBits.length = n) ∧
         (f.lineBits.length ≤ n → t.lkd.sent = none ∧ t.lkd.sentCut = none)) ∧
       t.pending = s.pending ∧
       (r.live = 0 → r.cut = 0 ∨ s.fsc.posting = [] → t.fsc.mem = s.fsc.mem) ∧
       (∀ a,
         (∀ e rest g, r.live = 0 → s.fsc.posting = e :: rest → s.region e.region = some g →
           ∀ p ∈ (e.burst g).take r.cut, ∀ b, s.fsc.pixelAddr g 0 p.1 = some b → a < b ∨ b + 3 < a) →
         (∀ g, 0 < r.live → s.lip.bound.bind s.region = some g → ∀ p ∈ lineRun g.width r.live s.lip.queue,
           ∀ b, s.fsc.pixelAddr g p.buffer p.offset = some b → a < b ∨ b + 3 < a) →
         Memory.read t.fsc.mem a = Memory.read s.fsc.mem a) ∧
       (∀ e rest g p, r.live = 0 → s.fsc.posting = e :: rest → s.region e.region = some g →
         burstFails e.region g s = none →
         ((e.burst g).take r.cut).getLast? = some p → (s.fsc.pixelAddr g 0 p.1).isSome = true →
         ({ s.fsc with mem := t.fsc.mem } : Fsc).readPixel g 0 p.1 = p.2) ∧
       (∀ g p, 0 < r.live → s.lip.bound.bind s.region = some g →
         (lineRun g.width r.live s.lip.queue).getLast? = some p →
         (s.fsc.pixelAddr g p.buffer p.offset).isSome = true →
         ({ s.fsc with mem := t.fsc.mem } : Fsc).readPixel g p.buffer p.offset = p.word)) ∧
  (∀ (o : RankOutcome) (s : State), o.wf = true → s.fsc.store = .sizing → s.fsc.sizingAt < 4 →
     (∀ i, i < s.fsc.sizingAt → ∃ o' : RankOutcome, o'.wf = true ∧ at_ s.fsc.ranks i Rank.reset = Rank.after o') →
     ∃ t : State, exec (.rankSized o) s = .next t ∧ t.fsc.sizingAt = s.fsc.sizingAt + 1 ∧
       t.fsc.regions = s.fsc.regions ∧ t.fsc.mem = s.fsc.mem ∧ t = { s with fsc := t.fsc, lkd := t.lkd } ∧
       (let r := at_ t.fsc.ranks s.fsc.sizingAt Rank.reset
        match o with
        | .absent => r.state = .absent ∧ r.pages = 0 ∧ r.size = none
        | .sizeFault => r.state = .failed ∧ r.cause = some .size ∧ r.pages = 0 ∧ r.size = none
        | .passed size => r.state = .present ∧ r.size = some size
        | .patternFault size page => r.state = .failed ∧ r.cause = some .pattern ∧ r.size = some size ∧
           r.firstBad = some page ∧ r.pages = 0) ∧
       (let rankFault (size page : Field) (cause : RankCause) : Lkd :=
          s.lkd.raise ⟨.rankFault, s.rtu.counter, [.u2 s.fsc.sizingAt, size, .u2 cause.code, page]⟩
        let sized : Lkd := match o with
          | .absent => s.lkd
          | .passed _ => s.lkd
          | .sizeFault => rankFault .none2 .none4 .size
          | .patternFault size page => rankFault (.u2 size) (.u4 page) .pattern
        (s.fsc.sizingAt < 3 → t.lkd = sized) ∧
        (s.fsc.sizingAt = 3 → t.lkd = sized.raise ⟨.storeReady, s.rtu.counter,
          .u2 t.fsc.store.code :: .u4 t.fsc.pageTotal :: (List.range 4).map (fun i =>
            let r := at_ t.fsc.ranks i Rank.reset
            if r.state = .present then opt2 r.size else .none2)⟩)) ∧
       (s.fsc.sizingAt < 3 → t.fsc.store = .sizing ∧ t.fsc.pageTotal = s.fsc.pageTotal ∧
         ∀ i, i < 4 → i ≠ s.fsc.sizingAt → at_ t.fsc.ranks i Rank.reset = at_ s.fsc.ranks i Rank.reset) ∧
       (s.fsc.sizingAt = 3 →
         (∀ i, i < 4 →
           let found := if i = 3 then Rank.after o else at_ s.fsc.ranks i Rank.reset
           let r := at_ t.fsc.ranks i Rank.reset
           (found.state ≠ .present → r = found) ∧
           (∀ size, found.state = .present → found.size = some size → r = { found with
             base := some (((List.range i).map (fun j => (at_ t.fsc.ranks j Rank.reset).pages)).sum)
             pages := size * 256 })) ∧
         t.fsc.pageTotal = ((List.range 4).map (fun i => (at_ t.fsc.ranks i Rank.reset).pages)).sum ∧
         t.fsc.store = if t.fsc.pageTotal = 0 then .noMemory else .ready))

/-- R179: RESET is refused with RANGE for a scope that names none, and with LOCKED for FULL under the show lock;
otherwise the reply OK is formed at once and no later request is taken until it has been sent. Once the reply of scope
LINK has been sent, the link reset empties the request queue and the notice queue and sets the mask to all six
classes; the replies that are ready stay, and nothing else changes. -/
def Obligations.ResetRequestAndLinkReset : Prop :=
  (∀ (tag : Byte) (scope : Nat) (rest : List QueuedRequest) (s : State), s.takes (.reset tag scope) rest →
     exec (.reset tag scope) s = .next
       (if scope = 0 then (s.setLkd { s.lkd with hold := .resetReply .link }).answered tag 0x05 .ok [.u1 0] rest
        else if scope = 1 then
          if s.fsc.showLock = true then s.answered tag 0x05 .locked [] rest
          else (s.setLkd { s.lkd with hold := .resetReply .full }).answered tag 0x05 .ok [.u1 1] rest
        else s.answered tag 0x05 .range [] rest)) ∧
  (∀ s : State, s.lkd.hold = .resetDue .link →
     ∃ t, exec .linkReset s = .next t ∧ t.lkd.requests = [] ∧ noticeCount t.lkd.ready = 0 ∧
       t.lkd.ready = s.lkd.ready.filter (fun f => !f.isNotice) ∧ t.lkd.mask = ⟨true, true, true, true, true, true⟩ ∧
       t.lkd.hold = .free ∧
       t = s.setLkd { s.lkd with
         requests := t.lkd.requests, ready := t.lkd.ready, mask := t.lkd.mask, hold := t.lkd.hold })

/-! ## The Control Link -/

/-- R170 to R172: a whole frame of a request, received character by character in HUNTING with no gap and every stop bit
high, joins the tail of the request queue, or with 4 requests there is discarded and answered BUSY. Nothing else of the
part changes but the clock and the tally lines, which the command carries (the model's choices: log 4, 5). -/
def Obligations.ReceivedRequestJoinsOrIsBusy : Prop :=
  ∀ (time : Nat) (lines : BitVec 8) (tag kind : Byte) (body : List Byte) (s : State),
    s.lkd.rx = .hunting → body.length ≤ 1024 → kind.toNat < 0x7F →
    exec (.controlLinkFrame time lines ((linkFrame tag kind body).map (fun b => ⟨false, charBits b⟩))) s =
      .next
        (let u := (s.setRtu (s.rtu.advance time)).setCph { s.cph with lines := lines }
         if s.lkd.requests.length < 4 then
           u.setLkd { s.lkd with requests := s.lkd.requests ++ [readRequest tag kind body] }
         else
           u.setLkd { s.lkd with ready := s.lkd.ready ++ [.reply ⟨tag, kind + 0x80, .busy, []⟩] })

/-- R171: a frame whose length exceeds 1024, whose check is wrong, whose kind is 0x7F or above, or that is broken by a
gap or a character error, is discarded: the link error count rises by 1, stopping at 65535, the receiver hunts, and
nothing else changes. A character that is no marker is passed over in HUNTING. -/
def Obligations.BadFramesAreDiscarded : Prop :=
  ∀ (c : RxChar) (bytes : List Byte) (s : State),
    (s.lkd.rx = .hunting → (c.value ≠ 0xC5 ∨ c.error = true) → receiveChar s c = s) ∧
    (s.lkd.rx = .inFrame bytes →
      (c.gap = true ∧ (c.value ≠ 0xC5 ∨ c.error = true) ∨ c.gap = false ∧ c.error = true ∨
        c.gap = false ∧ c.error = false ∧
          (bytes.length = 1 ∧ 1024 < frameLength (bytes ++ [c.value]) ∨
           bytes.length + 1 = frameLength (bytes ++ [c.value]) + 6 ∧ 2 ≤ bytes.length ∧
            (0x7F ≤ ((bytes ++ [c.value]).getD 3 0).toNat ∨
             (bytes ++ [c.value]).drop (4 + frameLength (bytes ++ [c.value])) ≠
               bytes2 (linkCheck ((bytes ++ [c.value]).take (4 + frameLength (bytes ++ [c.value])))).toNat))) →
      receiveChar s c = s.setLkd { s.lkd with rx := .hunting, linkErrors := min 65535 (s.lkd.linkErrors + 1) })

/-- Decode and encode agree: the body that a well-formed request of the catalogue is written as, in the layout of its
kind, reads back as that request, every operand at every value that its field admits (the layouts that chapter 12 gives
only in general are the model's choice: log 23). -/
def Obligations.RequestBodiesRoundTrip : Prop :=
  ∀ (i : Instr) (kind : Nat) (tag : Byte) (body : List Byte), i.wf = true → requestParts i = some (kind, tag, body) →
    readRequest tag (byte kind) body = .command i

/-- R172, R173: a request that is not at the head, or that comes while a reply is withheld, waits at the tail of the
request queue, or with 4 requests there is answered BUSY (every request, given as a command: the model's choice, log
3), and so is one of a kind outside the catalogue. At the head, every request is answered once and leaves the queue:
what is ready to go out gains this one reply, and notices; or its reply is withheld for one of the four reasons with
nothing else changed. A request refused changes nothing, and its reply is its status alone; a kind outside the catalogue
is answered UNKNOWN. A READ PHASE that comes with the levels of the tally lines is answered from them (R30; log 5). -/
def Obligations.RequestsServedInTurn : Prop :=
  (∀ (i : Instr) (kind : Nat) (tag : Byte) (body : List Byte) (s : State), requestParts i = some (kind, tag, body) →
     (∀ rest, ¬s.takes i rest) →
     exec i s = .next
       (if s.lkd.requests.length < 4 then s.setLkd { s.lkd with requests := s.lkd.requests ++ [.command i] }
        else s.setLkd { s.lkd with ready := s.lkd.ready ++ [.reply ⟨tag, byte kind + 0x80, .busy, []⟩] })) ∧
  (∀ (tag kind : Byte) (s : State), kind.toNat < 0x7F → kind.toNat ∉ catalogue →
     (∀ rest, ¬s.takes (.unknownKind tag kind) rest) →
     exec (.unknownKind tag kind) s = .next
       (if s.lkd.requests.length < 4 then
         s.setLkd { s.lkd with requests := s.lkd.requests ++ [.command (.unknownKind tag kind)] }
        else s.setLkd { s.lkd with ready := s.lkd.ready ++ [.reply ⟨tag, kind + 0x80, .busy, []⟩] })) ∧
  (∀ (i : Instr) (kind : Nat) (tag : Byte) (body : List Byte) (rest : List QueuedRequest) (s : State),
     requestParts i = some (kind, tag, body) → s.takes i rest →
     (∃ st, st ≠ .ok ∧ exec i s = .next (s.answered tag (byte kind) st [] rest)) ∨
     (∃ (t : State) (fields : List Field) (notices : List OutFrame),
       exec i s = .next (t.repliedFrom s.lkd.ready.length tag (byte kind) .ok fields rest) ∧
       t.lkd.ready = s.lkd.ready ++ notices ∧ (∀ f ∈ notices, f.isNotice = true) ∧ t.lkd.sent = s.lkd.sent ∧
       t.lkd.sentCut = s.lkd.sentCut ∧ t.lkd.rx = s.lkd.rx ∧ t.pending = s.pending) ∨
     ∃ h, (h = .place ∨ h = .drain ∨ h = .readDrain ∨ h = .readGrant) ∧
       exec i s = .next (s.setLkd { s.lkd with hold := h, requests := .command i :: rest })) ∧
  (∀ (tag kind : Byte) (rest : List QueuedRequest) (s : State), s.takes (.unknownKind tag kind) rest →
     kind.toNat < 0x7F → kind.toNat ∉ catalogue →
     exec (.unknownKind tag kind) s = .next (s.answered tag kind .unknown [] rest)) ∧
  (∀ (tag : Byte) (lines : BitVec 8) (s : State),
     exec (.readPhase ⟨tag, some lines⟩) s =
       exec (.readPhase ⟨tag, none⟩) (s.setCph { s.cph with lines := lines }))

/-- R174, R179: the transmitter sends the frame that became ready first, whole, and nothing else changes; the OK of a
RESET, once sent, makes its reset due. -/
def Obligations.TransmitSendsOldestReady : Prop :=
  ∀ (f : OutFrame) (later : List OutFrame) (s : State), s.lkd.ready = f :: later →
    (∀ scope, s.lkd.hold ≠ .resetDue scope) →
    ∃ h, exec .transmitFrame s = .next (s.setLkd { s.lkd with ready := later, sent := some f, sentCut := none, hold := h }) ∧
      ({ s.lkd with ready := later, sent := some f, sentCut := none, hold := h } : Lkd).lineBits = f.lineBits ∧
      ((∀ scope, s.lkd.hold ≠ .resetReply scope) → h = s.lkd.hold) ∧
      (∀ scope, s.lkd.hold = .resetReply scope →
        ((∃ r, f = .reply r ∧ r.kind = 0x85 ∧ r.status = .ok) → h = .resetDue scope) ∧
        ((¬∃ r, f = .reply r ∧ r.kind = 0x85 ∧ r.status = .ok) → h = .resetReply scope))

/-- R175, R176: what raising a notice does. Masked, nothing. Otherwise, if notices were dropped and the queue has a
place, NOTICES_DROPPED with their count enters first and the count returns to 0; then the notice enters, or, with 32
notices in the queue, is lost and counted, the count stopping at 65535. SET NOTICE MASK writes the set of classes that
are raised, and is refused with RANGE for a bit that names no class. -/
def Obligations.NoticesMaskedQueuedAndDropped : Prop :=
  (∀ (l : Lkd) (n : Notice),
     (l.mask.passes n.kind = false → l.raise n = l) ∧
     (l.mask.passes n.kind = true →
       (32 ≤ noticeCount l.ready → l.raise n = { l with dropped := min 65535 (l.dropped + 1) }) ∧
       (l.dropped = 0 → noticeCount l.ready < 32 → l.raise n = { l with ready := l.ready ++ [.notice n] }) ∧
       (0 < l.dropped → noticeCount l.ready < 31 →
         l.raise n = { l with
           ready := l.ready ++ [.notice ⟨.noticesDropped, n.counter, [.u2 l.dropped]⟩, .notice n], dropped := 0 }) ∧
       (0 < l.dropped → noticeCount l.ready = 31 →
         l.raise n = { l with
           ready := l.ready ++ [.notice ⟨.noticesDropped, n.counter, [.u2 l.dropped]⟩], dropped := 1 })) ∧
     l.mask.passes .noticesDropped = true) ∧
  (∀ (tag : Byte) (mask : Nat) (rest : List QueuedRequest) (s : State), s.takes (.setNoticeMask tag mask) rest →
     exec (.setNoticeMask tag mask) s = .next
       (if mask < 64 then
         (s.setLkd { s.lkd with mask := ⟨mask.testBit 0, mask.testBit 1, mask.testBit 2, mask.testBit 3, mask.testBit 4,
           mask.testBit 5⟩ }).answered tag 0x04 .ok [.u1 mask] rest
        else s.answered tag 0x04 .range [] rest))

/-- R178: CLEAR FLAGS clears the flags that it names and no other, sets the link error count to 0 if named, leaves all
else, and answers with the values of READ STATUS as they then stand; with a wall above 3 named, or a channel range
that passes 768, it is refused with RANGE. Which bit of `select` names WAIT_OVERFLOW, FADE_OVERFLOW and the link error
count is the model's choice (log 23). -/
def Obligations.ClearFlagsRequest : Prop :=
  ∀ (tag : Byte) (q : ClearFlagsReq) (rest : List QueuedRequest) (s : State), s.takes (.clearFlags tag q) rest →
    ((15 < q.clip ∨ 15 < q.shed ∨ 768 < q.first + q.count) →
      exec (.clearFlags tag q) s = .next (s.answered tag 0x03 .range [] rest)) ∧
    (q.clip ≤ 15 → q.shed ≤ 15 → q.first + q.count ≤ 768 →
      ∃ t : State, exec (.clearFlags tag q) s =
          .next (t.answered tag 0x03 .ok
            (statusFields (t.setLkd { t.lkd with requests := .command (.clearFlags tag q) :: rest })) rest) ∧
        (∀ w, t.wall w = (s.wall w).map (fun x => { x with
          clipFlag := x.clipFlag && !q.clip.testBit w, shedFlag := x.shedFlag && !q.shed.testBit w })) ∧
        (∀ c, c < 768 → t.channel c =
          if q.first ≤ c ∧ c < q.first + q.count then { s.channel c with sat := false } else s.channel c) ∧
        t.cue = { s.cue with waitOverflow := s.cue.waitOverflow && !q.select.testBit 0 } ∧
        t.lvp = { s.lvp with fadeOverflow := s.lvp.fadeOverflow && !q.select.testBit 1, channels := t.lvp.channels } ∧
        t.lkd = { s.lkd with linkErrors := if q.select.testBit 2 = true then 0 else s.lkd.linkErrors } ∧
        t = { s with wse := { s.wse with walls := t.wse.walls }, cue := t.cue, lvp := t.lvp, lkd := t.lkd })

/-- A request that only reads (IDENTIFY, READ STATUS, READ TIMING, READ PHASE, READ REGION, READ MEMORY, READ POSTING,
READ LIVE, READ WALL, READ ZONE, READ CUE, READ CUE STATE, READ LEVELS, READ BUS, READ FIXTURE, READ DIMMER) is
answered at once, with OK where what it names is there and with a status alone where it is not, and changes nothing
else, whatever its operands; IDENTIFY carries the codes of the part and the rate that the straps set (R170), and READ
ZONE the zone with its last averages. That the link rate goes out as its number of Mbit/s, and the form of the READ
ZONE reply, are the model's choices (log 34). -/
def Obligations.ReadsChangeNothing : Prop :=
  (∀ (i : Instr) (kind : Nat) (tag : Byte) (body : List Byte) (rest : List QueuedRequest) (s : State),
    requestParts i = some (kind, tag, body) → kind ∈ readKinds → s.takes i rest →
    ∃ (st : Status) (fields : List Field), exec i s = .next (s.answered tag (byte kind) st fields rest) ∧
      (st = .ok ↔ s.answersRead i) ∧ (st ≠ .ok → fields = [])) ∧
  (∀ (tag : Byte) (rest : List QueuedRequest) (s : State),
    (s.takes (.identify tag) rest →
      let rate := if s.lkd.straps = 0 then 1 else if s.lkd.straps = 1 then 4 else if s.lkd.straps = 2 then 12 else 25
      exec (.identify tag) s = .next (s.answered tag 0x01 .ok
        [.u2 0x0A7D, .u2 0x3120, .u1 1, .u4 s.fsc.pageTotal, .u1 s.fsc.store.code, .u1 rate] rest)) ∧
    (∀ (id : Nat) (z : Zone), s.takes (.readZone tag id) rest → id ≤ 7 → s.wse.zones.find id = some z →
      exec (.readZone tag id) s = .next (s.answered tag 0x39 .ok
        ([.u1 id, .u1 z.wall, .u2 z.rect.x, .u2 z.rect.y, .u2 z.rect.width, .u2 z.rect.height,
            .u4 (z.rect.width * z.rect.height)] ++
          (match z.last with
           | none => [.none2, .none2, .none2, .none2]
           | some a => [.u2 a.r, .u2 a.g, .u2 a.b, .u2 a.y]) ++ [optCounter z.lastFrame, s.counterField]) rest)))

/-! ## The Reference Timing Unit -/

/-- R15, R16: what SET REFERENCE does when it is carried out. With mode, standard and field mode as they were it writes the
settings alone; otherwise it also enters FREERUN or ACQUIRING, with the counts at 0 and the period, the frame counter
and the tick position as they were, and raises REFERENCE_STATE. That a lengthened slip frame in progress stays
lengthened (slip and endTick as they were) is the model's choice (log 19). -/
def Obligations.SetReferenceCarriedOut : Prop :=
  ∀ (tag : Byte) (q : SetReferenceReq) (rest : List QueuedRequest) (m : RefMode) (st : Standard) (f : FieldMode)
    (p : FieldPolarity) (s : State),
    s.takes (.setReference tag q) rest → s.fsc.showLock = false →
    keepOr s.rtu.mode RefMode.ofCode q.mode = some m → keepOr s.rtu.standard Standard.ofCode q.standard = some st →
    keepOr s.rtu.fieldMode FieldMode.ofCode q.fieldMode = some f →
    keepOr s.rtu.polarity FieldPolarity.ofCode q.polarity = some p →
    let limit := match q.limit with
      | none => s.rtu.holdoverLimit
      | some n => max 1 (min 250 n)
    let fields := [Field.u1 m.code, .u1 st.code, .u1 f.code, .u1 p.code, .u2 limit]
    (m = s.rtu.mode → st = s.rtu.standard → f = s.rtu.fieldMode →
      exec (.setReference tag q) s =
        .next ((s.setRtu { s.rtu with polarity := p, holdoverLimit := limit }).answered tag 0x10 .ok fields rest)) ∧
    (m ≠ s.rtu.mode ∨ st ≠ s.rtu.standard ∨ f ≠ s.rtu.fieldMode →
      ∃ t : State, exec (.setReference tag q) s =
          .next (t.repliedFrom s.lkd.ready.length tag 0x10 .ok fields rest) ∧
        t.rtu = { s.rtu with
          mode := m, standard := st, fieldMode := f, polarity := p, holdoverLimit := limit
          gen := if m = .free then .freerun else .acquiring
          acqCount := 0, holdoverCount := 0
          acqOrigin := if m = .free then s.rtu.acqOrigin else .freerun
          warned := if m = .free then s.rtu.warned else false
          gapCount := if m = .free then s.rtu.gapCount else 0
          acqStarted := if m = .free then s.rtu.acqStarted else false
          acqPrev := if m = .free then s.rtu.acqPrev else none
          prevStart := if f = s.rtu.fieldMode then s.rtu.prevStart else none } ∧
        t = { s with
          rtu := t.rtu
          lkd := s.lkd.raise ⟨.referenceState, s.rtu.counter,
            [.u2 s.rtu.gen.code, .u2 t.rtu.gen.code, .u2 6, .u4 s.rtu.period]⟩ })

/-- R1: a line pulse gives the line period, the interval of the two most recent ones, and otherwise only lets the
clock run on; and which pulses on the frame pulse input are reference frame starts. The clock and the time to the next
line pulse as an operand, and that the quarter of a line period is taken exactly, are the model's choices (log 4, 6,
42). -/
def Obligations.LinePulsesAndReferenceStarts : Prop :=
  (∀ (time : Nat) (s : State),
     exec (.linePulse time) s = .next (s.setRtu { s.rtu.advance time with
       lastLine := some time, linePeriod := s.rtu.lastLine.map (fun prev => time - prev) }) ∧
     (s.rtu.advance time).counter = s.rtu.counter ∧ (s.rtu.advance time).gen = s.rtu.gen ∧
     (s.rtu.advance time).period = s.rtu.period) ∧
  (∀ (r : Rtu) (p : FramePulse),
     (r.fieldMode = .progressive → r.qualifies p = true) ∧
     (r.fieldMode = .fieldLine → r.qualifies p = (p.fieldHigh == decide (r.polarity = .normal))) ∧
     (r.fieldMode = .pulsePhase → ∀ line period, r.lastLine = some line → r.linePeriod = some period →
       (r.qualifies p = true ↔
         4 * (p.time - line) < period ∨ ∃ d, p.lineAfter = some d ∧ 4 * d < period)) ∧
     (r.fieldMode = .pulsePhase → r.lastLine = none ∨ r.linePeriod = none → r.qualifies p = false))

/-- R1, R2, R6, R12, R14, R15: what a frame pulse does outside an acquisition, when it does not come after the late limit.
A pulse that is no reference frame start only lets the clock run on; a start is measured; in FREERUN and HOLDOVER with
mode LOCK it enters ACQUIRING, with REFERENCE_STATE, in FREE nothing more; an early one in LOCKED is only measured; an on-time one ends the
frame, and with its measured interval in tolerance that becomes the period. The clock that the pulse carries and the
tally lines that it gives are the model's choices (log 4, 5), as is the late boundary before a pulse that comes after
the late limit, which this leaves out (log 32). -/
def Obligations.FramePulseOutsideAcquisition : Prop :=
  ∀ (p : FramePulse) (s : State), ¬(s.rtu.gen = .locked ∧ s.rtu.lateTime < p.time) →
    let u := (s.setRtu (s.rtu.advance p.time)).setCph { s.cph with lines := p.tally }
    let measured := match s.rtu.prevStart with
      | some prev => p.time - prev
      | none => 0
    let v := u.setRtu { u.rtu with lastMeasured := measured, prevStart := some p.time }
    (u.rtu.qualifies p = false → exec (.framePulse p) s = .next u) ∧
    (u.rtu.qualifies p = true → s.rtu.gen = .freerun ∨ s.rtu.gen = .holdover → s.rtu.mode = .free →
      exec (.framePulse p) s = .next v) ∧
    (u.rtu.qualifies p = true → s.rtu.gen = .freerun ∨ s.rtu.gen = .holdover → s.rtu.mode = .lock →
      ∃ t : State, exec (.framePulse p) s = .next t ∧
        t.rtu = { v.rtu with
          gen := .acquiring, acqCount := 0, warned := false, gapCount := 0, acqStarted := true, acqPrev := none
          acqOrigin := if s.rtu.gen = .freerun then .freerun else .holdover } ∧
        t = { v with
          rtu := t.rtu
          lkd := s.lkd.raise ⟨.referenceState, s.rtu.counter,
            [.u2 s.rtu.gen.code, .u2 GenState.acquiring.code, .u2 RefCause.referenceSeen.code, .u4 s.rtu.period]⟩ }) ∧
    (u.rtu.qualifies p = true → s.rtu.gen = .locked → u.rtu.tickAt p.time + 4096 < s.rtu.endTick →
      exec (.framePulse p) s = .next v) ∧
    (u.rtu.qualifies p = true → s.rtu.gen = .locked → s.rtu.endTick ≤ u.rtu.tickAt p.time + 4096 →
      ∃ t : State, exec (.framePulse p) s = .next t ∧ t.rtu.counter = s.rtu.counter + 1 ∧ t.rtu.tick = 0 ∧
        t.rtu.onTime = p.time ∧
        t.rtu.gen = (if s.rtu.standard.accepts (p.time - s.rtu.onTime) = true then .locked else .holdover) ∧
        t.rtu.period = (if s.rtu.standard.accepts (p.time - s.rtu.onTime) = true then p.time - s.rtu.onTime
          else s.rtu.period) ∧ s.boundaryKeeps t)

/-- R6 to R11, R15: what a reference frame start does in ACQUIRING. The first one only starts the count; a later one
counts by its measured period, the first one out of tolerance raising WRONG_STANDARD; the eighth in a row enters LOCKED,
with REFERENCE_STATE, and the frame is realigned by the tick position at entry: where it is realigned at once, FRAME_SLIP
follows. The clock and the tally lines that the pulse carries, the size of the fields of the notices and the order of the
two notices of one moment are the model's choices (log 4, 5, 18, 24). -/
def Obligations.AcquisitionCountsToLocked : Prop :=
  ∀ (p : FramePulse) (s : State), s.rtu.gen = .acquiring →
    let u := (s.setRtu (s.rtu.advance p.time)).setCph { s.cph with lines := p.tally }
    let measured := match s.rtu.prevStart with
      | some prev => p.time - prev
      | none => 0
    u.rtu.qualifies p = true →
    (s.rtu.acqStarted = false →
      exec (.framePulse p) s = .next (u.setRtu { u.rtu with
        lastMeasured := measured, prevStart := some p.time, acqStarted := true, gapCount := 0 })) ∧
    (s.rtu.acqStarted = true →
      let count :=
        if s.rtu.standard.accepts measured = false then 0
        else if s.rtu.acqCount = 0 then 1
        else match s.rtu.acqPrev with
          | some prev =>
            if prev - prev / 1024 ≤ measured ∧ measured ≤ prev + prev / 1024 then s.rtu.acqCount + 1 else 1
          | none => 1
      (count < 8 → ∃ t : State, exec (.framePulse p) s = .next t ∧
        t.rtu = { u.rtu with
          lastMeasured := measured, prevStart := some p.time, acqCount := count, acqPrev := some measured, gapCount := 0
          warned := s.rtu.warned || !s.rtu.standard.accepts measured } ∧
        t = { u with
          rtu := t.rtu
          lkd := if s.rtu.standard.accepts measured = true ∨ s.rtu.warned = true then s.lkd
            else s.lkd.raise ⟨.wrongStandard, s.rtu.counter,
              [.u4 measured, .u2 s.rtu.standard.code, .u2 s.rtu.fieldMode.code]⟩ }) ∧
      (8 ≤ count →
        let locked (counter : BitVec 32) : Lkd := s.lkd.raise ⟨.referenceState, counter,
          [.u2 GenState.acquiring.code, .u2 GenState.locked.code, .u2 RefCause.acquired.code, .u4 measured]⟩
        let slip (counter : BitVec 32) (ticks : Int) (length : Nat) : Lkd :=
          (locked counter).raise ⟨.frameSlip, counter, [.i2 ticks, .u2 length, .u4 measured]⟩
        ∃ t : State, exec (.framePulse p) s = .next t ∧ t.rtu.gen = .locked ∧ t.rtu.period = measured ∧
        t.rtu.acqCount = 0 ∧ t.rtu.holdoverCount = 0 ∧ t.rtu.onTime = p.time ∧
        (u.rtu.tick = 0 → t.rtu.counter = s.rtu.counter ∧ t.rtu.lastSlip = 0 ∧
          t.lkd = slip s.rtu.counter 0 65536) ∧
        (0 < u.rtu.tick → u.rtu.tick < 32768 → t.rtu.counter = s.rtu.counter ∧ t.rtu.slip = some u.rtu.tick ∧
          t.rtu.endTick = 65536 + u.rtu.tick ∧ t.lkd = locked s.rtu.counter) ∧
        (32768 ≤ u.rtu.tick → t.rtu.counter = s.rtu.counter + 1 ∧ t.rtu.tick = 0 ∧
          t.rtu.lastSlip = (u.rtu.tick : Int) - 65536 ∧
          ∃ later : List Notice, t.lkd = later.foldl Lkd.raise
            (slip (s.rtu.counter + 1) ((u.rtu.tick : Int) - 65536) u.rtu.tick)) ∧ s.boundaryKeeps t))

/-! ## Frame boundaries -/

/-- R4, R5, R22, R24: the boundary that the tick count brings outside LOCKED. The counter goes up by 1 and wraps, a
frame of 65536 ticks begins at tick 0, the Camera Phase Unit samples, settles and steps, and the tile map of the frame
is the tile map; it reaches nothing of what `State.boundaryKeeps` lists. R81: every wall has the frame parameters of the
new frame: its mode and pattern, and each layer's source, rectangle and position, its opacity and the wall's brightness,
the held ones where the wall holds some and otherwise the current ones as the boundary leaves them; the live buffer of
the latch made at the boundary; and the visible pixels of the layer (R79). That a layer keeps the record that its region
has at the boundary is the model's choice (log 35). -/
def Obligations.FrameBoundaryBeginsFrame : Prop :=
  ∀ (lines : BitVec 8) (s : State), s.rtu.gen ≠ .locked →
    ∃ t : State, exec (.frameBoundary lines) s = .next t ∧ t.rtu.counter = s.rtu.counter + 1 ∧ t.rtu.tick = 0 ∧
      t.rtu.tickBase = 0 ∧ t.rtu.endTick = 65536 ∧ t.rtu.mode = s.rtu.mode ∧ t.rtu.standard = s.rtu.standard ∧
      t.rtu.lastMeasured = s.rtu.lastMeasured ∧ t.cph = (s.cph.sample lines).step ∧
      (∀ e ∈ t.wse.walls, e.2.picture = [] ∧ ∃ f, e.2.frame = some f ∧ f.mode = e.2.mode ∧ f.pattern = e.2.pattern ∧
        (e.2.held = none → f.brightness = t.level (784 + e.1)) ∧
        (∀ h, e.2.held = some h → f.brightness = h.brightness) ∧
        ∀ i, i < 4 →
          let l := at_ f.layers i FrameLayer.none_
          let overlap (start : Int) (length limit : Nat) : Nat := (min (start + length) limit - max start 0).toNat
          (e.2.held = none → l.layer = at_ e.2.layers i Layer.none_ ∧ l.opacity = t.level (768 + 4 * e.1 + i)) ∧
          (∀ h, e.2.held = some h →
            l.layer = (at_ h.layers i default).layer ∧ l.opacity = (at_ h.layers i default).opacity) ∧
          l.buffer = (at_ t.lip.latch (4 * e.1 + i) none).map (·.buffer) ∧
          l.region = l.layer.source.bind t.region ∧
          l.visible = overlap l.layer.px l.layer.rect.width e.2.width *
            overlap l.layer.py l.layer.rect.height e.2.height) ∧
      t.wse.frameTiles = t.wse.tiles ∧
      t.wse.tiles = s.wse.tiles ∧ s.boundaryKeeps t

/-- R9, R12 to R14: the late limit in LOCKED enters HOLDOVER and ends the frame, the period staying; the boundary that
brings the gap count to 4 abandons the acquisition to its origin; the boundary at which the holdover count reaches its
limit ends HOLDOVER in FREERUN at the nominal period, or in ACQUIRING takes the origin HOLDOVER away. R11, R15: each
change of the generator's state raises REFERENCE_STATE, and the end of a lengthened slip frame raises FRAME_SLIP after
it, before the notices of the other blocks (their order: log 18; a length past 65535 in its field: log 24; a frame that
SET REFERENCE left lengthened: log 19). That ACQUISITION_ABANDONED and HOLDOVER_EXPIRED are the whole boundary is the
model's choice (log 1). -/
def Obligations.GeneratorLosesReference : Prop :=
  let raised (s t : State) (notices : List (NoticeKind × List Field)) : Prop :=
    ∃ later : List Notice, t.lkd = (notices.map (fun n => (⟨n.1, s.rtu.counter + 1, n.2⟩ : Notice)) ++ later).foldl Lkd.raise s.lkd
  let change (old new : GenState) (cause : RefCause) (period : Nat) : List (NoticeKind × List Field) :=
    [(.referenceState, [.u2 old.code, .u2 new.code, .u2 cause.code, .u4 period])]
  let slipEnd (s : State) (period : Nat) : List (NoticeKind × List Field) := match s.rtu.slip with
    | none => []
    | some k => [(.frameSlip, [.i2 k, .u2 (65536 + k), .u4 period])]
  (∀ (lines : BitVec 8) (s : State), s.rtu.gen = .locked →
     ∃ t : State, exec (.lateLimit lines) s = .next t ∧ t.rtu.gen = .holdover ∧ t.rtu.holdoverCount = 0 ∧
       t.rtu.period = s.rtu.period ∧ t.rtu.counter = s.rtu.counter + 1 ∧ t.rtu.tick = 0 ∧
       raised s t (change .locked .holdover .late s.rtu.period ++ slipEnd s s.rtu.period) ∧
       t.rtu.lastSlip = (match s.rtu.slip with
         | none => s.rtu.lastSlip
         | some k => (k : Int)) ∧ s.boundaryKeeps t) ∧
  (∀ (lines : BitVec 8) (s : State),
     let nominal := s.rtu.standard.nominal
     (s.rtu.gen = .acquiring → 3 ≤ s.rtu.gapCount → s.rtu.acqOrigin = .freerun →
       ∃ t : State, exec (.acquisitionAbandoned lines) s = .next t ∧ t.rtu.gen = .freerun ∧
         t.rtu.period = nominal ∧ t.rtu.counter = s.rtu.counter + 1 ∧
         raised s t (change .acquiring .freerun .abandoned nominal ++ slipEnd s nominal) ∧ s.boundaryKeeps t) ∧
     (s.rtu.gen = .acquiring → 3 ≤ s.rtu.gapCount → s.rtu.acqOrigin = .holdover →
       s.rtu.holdoverCount + 1 < s.rtu.holdoverLimit →
       ∃ t : State, exec (.acquisitionAbandoned lines) s = .next t ∧ t.rtu.gen = .holdover ∧
         t.rtu.holdoverCount = s.rtu.holdoverCount + 1 ∧ t.rtu.period = s.rtu.period ∧
         t.rtu.counter = s.rtu.counter + 1 ∧
         raised s t (change .acquiring .holdover .abandoned s.rtu.period ++ slipEnd s s.rtu.period) ∧
         s.boundaryKeeps t) ∧
     (s.rtu.gen = .holdover → s.rtu.holdoverLimit ≤ s.rtu.holdoverCount + 1 →
       ∃ t : State, exec (.holdoverExpired lines) s = .next t ∧ t.rtu.gen = .freerun ∧
         t.rtu.period = nominal ∧ t.rtu.counter = s.rtu.counter + 1 ∧
         raised s t (change .holdover .freerun .holdoverExpired nominal ++ slipEnd s nominal) ∧ s.boundaryKeeps t) ∧
     (s.rtu.gen = .acquiring → s.rtu.acqOrigin = .holdover → s.rtu.holdoverLimit ≤ s.rtu.holdoverCount + 1 →
       s.rtu.gapCount < 3 →
       ∃ t : State, exec (.holdoverExpired lines) s = .next t ∧ t.rtu.gen = .acquiring ∧ t.rtu.acqOrigin = .freerun ∧
         t.rtu.period = nominal ∧ t.rtu.counter = s.rtu.counter + 1 ∧ raised s t (slipEnd s nominal) ∧
         s.boundaryKeeps t))

/-- R117 to R119, R134, R159: boundaries at which a wait entry, the follow timer, a fade, a keep-alive countdown or a
silence count comes to its end, outside LOCKED; a wait entry and a fade where nothing else fires or starts at it. The
due entries are executed in due order, after the advance and the manual fades, and none fires; as each leaves, the
reference count of the region that its action names falls by 1, and so does the outstanding count of its owner (R121,
R123), and a LAYER SOURCE entry that is due alone has written its layer after the boundary. A fixture that becomes
SILENT raises FIXTURE_STATE. That each of the five commands is the whole boundary is the model's choice (log 1). -/
def Obligations.BoundaryEnds : Prop :=
  (∀ (rises : List Nat) (s : State), s.cue.pending = none → s.cue.standby = none →
    let a := s.cue.advance
    let begun := s.setCue { s.cue with step := none }
    let ran := (dueEntries a s.cue.waits).foldl (fun t e => runDue e t)
      (startManual (if a = 0 then begun else advanceTime a begun))
    ∃ f, cueAtBoundary rises s = ran.setCue { ran.cue with follow := f }) ∧
  (∀ (a : Nat) (waits : List WaitEntry), 0 < a →
    let due := dueEntries a waits
    due.Perm (waits.filter (fun e => decide (e.remaining ≤ a))) ∧ due.Pairwise (fun d e => d.remaining ≤ e.remaining) ∧
      ∀ r, r ≤ a → due.filter (fun e => decide (e.remaining = r)) = waits.filter (fun e => decide (e.remaining = r))) ∧
  (∀ (e : WaitEntry) (s : State),
    let u := runAction e.owner e.position true e.action s
    runDue e s = judge none { u with
      fsc := { u.fsc with regions := match e.action.region with
        | none => u.fsc.regions
        | some id => u.fsc.regions.modify id (fun r => { r with ref := r.ref - 1 }) }
      cue := { u.cue with active := u.cue.active.map (fun b =>
        if e.owner = some b.cue then { b with outstanding := b.outstanding - 1 } else b) } }) ∧
  ∀ (lines : BitVec 8) (s : State), s.rtu.gen ≠ .locked →
    let a := s.cue.advance
    (∀ (e : WaitEntry) (w l : Nat) (source : Option Nat) (rect : Rect) (px py : Int) (x : Wall),
      s.cue.pending = none → s.cue.standby = none → s.lvp.manual = [] → s.lvp.fades = [] → 0 < a →
      s.cue.waits.filter (fun d => decide (d.remaining ≤ a)) = [e] →
      e.action = .layerSource w l source rect px py → s.wall w = some x →
      ∃ (t : State) (y : Wall), exec (.waitEntryDue lines) s = .next t ∧ t.wall w = some y ∧
        y.layers = put x.layers (l - 1) ⟨source, rect, px, py⟩ ∧
        (∀ id, (t.region id).map (·.ref) =
          (s.region id).map (fun r => r.ref - if source = some id then 1 else 0)) ∧
        ∀ b ∈ s.cue.active, e.owner = some b.cue → (∀ c ∈ s.cue.active, c.cue = b.cue → 1 < c.outstanding) →
          { b with outstanding := b.outstanding - 1 } ∈ t.cue.active) ∧
    (a = if s.cue.hold = true then s.cue.step.getD 0 else 1) ∧
    (s.cue.pending = none → s.cue.standby = none → (∃ e ∈ s.cue.waits, 0 < a ∧ e.remaining ≤ a) →
      ∃ t : State, exec (.waitEntryDue lines) s = .next t ∧ t.rtu.counter = s.rtu.counter + 1 ∧
        t.cue.waits = (s.cue.waits.filter (fun e => decide (a < e.remaining))).map
          (fun e => { e with remaining := e.remaining - a }) ∧ t.cue.step = none ∧ s.boundaryKeeps t) ∧
    (∀ f : Follow, s.cue.pending = none → s.cue.active = [] → s.cue.follow = some f → 0 < a → f.remaining ≤ a →
      ∃ t : State, exec (.followExpiry lines) s = .next t ∧ t.rtu.counter = s.rtu.counter + 1 ∧ s.boundaryKeeps t ∧
        (∀ n d actions, s.cue.standby = some n → s.cue.cues.find n = some ⟨.follow d, actions⟩ →
          t.cue.recent = some n ∧ t.cue.standby = (s.cue.cues.firstFrom (n + 1)).map (·.1)) ∧
        (s.cue.standby = none → t.cue.follow = none ∧ t.cue.recent = s.cue.recent)) ∧
    (∀ (target : Nat) (f : Fade), target ≤ 788 → s.lvp.fades.find target = some f → 0 < a →
      f.duration ≤ f.elapsed + a → s.lvp.manual = [] → s.cue.waits = [] → s.cue.pending = none →
      s.cue.standby = none → Table.wf s.lvp.fades = true →
      ∃ t : State, exec (.fadeEnd target lines) s = .next t ∧ t.level target = f.stop ∧
        t.lvp.fades.find target = none ∧ t.rtu.counter = s.rtu.counter + 1 ∧ s.boundaryKeeps t ∧
        (∀ u g, u ≤ 788 → s.lvp.fades.find u = some g → g.elapsed + a < g.duration →
          (t.lvp.fades.find u).map (·.elapsed) = some (g.elapsed + a) ∧
          t.level u = fadeLevel (s.curve g.curve) g (g.elapsed + a)) ∧
        (∀ u, u ≤ 788 → s.lvp.fades.find u = none → t.level u = s.level u)) ∧
    (∀ (id : Nat) (f : Fixture), Table.wf s.fbc.fixtures = true → s.fbc.fixtures.find id = some f →
      (f.countdown ≤ 1 →
        ∃ (t : State) (g : Fixture), exec (.keepAliveExpiry id lines) s = .next t ∧ t.fbc.fixtures.find id = some g ∧
          g.countdown = f.keepAlive ∧ g.sent = f.sent ∧
          ((t.port f.port).isQueued id = true ∨ (t.port f.port).isDirty id = true) ∧
          t.rtu.counter = s.rtu.counter + 1 ∧ s.boundaryKeeps t) ∧
      (0 < f.silenceLimit → f.state ≠ .silent → f.silenceLimit ≤ f.silence + 1 →
        ∃ (t : State) (g : Fixture), exec (.silenceLimit id lines) s = .next t ∧ t.fbc.fixtures.find id = some g ∧
          g.state = .silent ∧ g.silence = f.silence + 1 ∧ g.temperature = f.temperature ∧
          (∃ before later : List Notice, t.lkd = later.foldl Lkd.raise
            ((before.foldl Lkd.raise s.lkd).raise ⟨.fixtureState, s.rtu.counter + 1,
              [.u2 id, .u2 (portCode f.port), .u2 f.address, .u2 f.state.code, .u2 FixtureState.silent.code,
                (match f.temperature with
                 | none => .noneI2
                 | some degrees => .i2 degrees)]⟩)) ∧
          t.rtu.counter = s.rtu.counter + 1 ∧ s.boundaryKeeps t))

/-! ## The Camera Phase Unit -/

/-- R22, R24: the on-air winner is the lowest preferred camera that is on, or else the lowest camera that is on, or
NONE, and gives the target; one step of the scan phase goes the shorter way round the circle, 512 taken forward, by at
most the slew limit, and exactly to a target within it. R19, R20, R23: before that every raw tally is sampled, from the
line through its polarity or from the link tally, and nothing else of a camera changes; a camera has a rise when its raw
tally was off and is on; and a winner that differs from the one before raises CAMERA_CHANGE. -/
def Obligations.TargetSettledAndPhaseStepped : Prop :=
  (∀ c : Cph,
     (∀ w, c.settle = some w ↔
       w < 8 ∧ (c.camera w).raw = true ∧
         ((c.camera w).preferred = true ∧ (∀ i, i < w → ¬((c.camera i).raw = true ∧ (c.camera i).preferred = true)) ∨
          (∀ i, i < 8 → ¬((c.camera i).raw = true ∧ (c.camera i).preferred = true)) ∧
           ∀ i, i < w → (c.camera i).raw = false)) ∧
     c.step.winner = c.settle ∧
     c.step.target = (match c.settle with
       | some w => (c.camera w).phase
       | none => c.idlePhase)) ∧
  (∀ (phase target limit : Nat), phase < 1024 → target < 1024 → 1 ≤ limit →
     let d := (target + 1024 - phase) % 1024
     let next := slewStep phase target limit
     next < 1024 ∧
     (d = 0 → next = phase) ∧
     (1 ≤ d → d ≤ 512 → (next + 1024 - phase) % 1024 = min d limit) ∧
     (513 ≤ d → (phase + 1024 - next) % 1024 = min (1024 - d) limit) ∧
     (min d (1024 - d) ≤ limit → next = target) ∧
     (1024 ≤ limit → next = target)) ∧
  (∀ (lines : BitVec 8) (s : State),
     let t := cphAtBoundary lines s
     (∀ i, i < 8 →
       let old := s.cph.camera i
       t.cph.camera i = { old with
         raw := match old.source with
           | .link => old.linkTally
           | .line => lines.getLsbD i == decide (old.polarity = .activeHigh) } ∧
       (i ∈ tallyRises s.cph t.cph ↔ old.raw = false ∧ (t.cph.camera i).raw = true)) ∧
     (∀ i, i ∈ tallyRises s.cph t.cph → i < 8) ∧
     t.cph.winner = (s.cph.sample lines).settle ∧ t.cph.idlePhase = s.cph.idlePhase ∧
     t.cph.slewLimit = s.cph.slewLimit ∧ t.cph.phase = slewStep s.cph.phase t.cph.target s.cph.slewLimit ∧
     t.lkd = (if t.cph.winner = s.cph.winner then s.lkd
       else s.lkd.raise ⟨.cameraChange, s.rtu.counter,
         [opt2 s.cph.winner, opt2 t.cph.winner, .u2 t.cph.target, .u2 t.cph.phase]⟩) ∧
     t = { s with cph := t.cph, lkd := t.lkd })

/-- R21, R27 to R29: the profile of a camera, the idle phase and the slew limit as their requests write them, refused
with LOCKED under the show lock; and TALLY, which the lock does not refuse, sets the link tally of one camera whose
source is LINK. A refused request changes nothing. That LOCKED comes before RANGE, and RANGE before WRONG_STATE, where
both hold is the model's choice (log 38). -/
def Obligations.CameraRequests : Prop :=
  (∀ (tag : Byte) (rest : List QueuedRequest) (s : State),
     (∀ phase, s.takes (.setIdlePhase tag phase) rest →
       exec (.setIdlePhase tag phase) s = .next
         (if s.fsc.showLock = true then s.answered tag 0x15 .locked [] rest
          else if 1023 < phase then s.answered tag 0x15 .range [] rest
          else (s.setCph { s.cph with idlePhase := phase }).answered tag 0x15 .ok [.u2 phase] rest)) ∧
     (∀ limit, s.takes (.setSlew tag limit) rest →
       exec (.setSlew tag limit) s = .next
         (if s.fsc.showLock = true then s.answered tag 0x16 .locked [] rest
          else
           let l := if limit = 0 then 1 else if 1024 < limit then 1024 else limit
           (s.setCph { s.cph with slewLimit := l }).answered tag 0x16 .ok [.u2 l] rest)) ∧
     (∀ (q : SetCameraReq) (phase : Nat) (preferred : Bool) (source : TallySource) (polarity : LinePolarity),
       s.takes (.setCamera tag q) rest → s.fsc.showLock = false → q.camera ≤ 7 →
       q.phase.getD (s.cph.camera q.camera).phase = phase → (q.phase.isSome = true → phase ≤ 1023) →
       keepOr (s.cph.camera q.camera).preferred boolOfCode q.preferred = some preferred →
       keepOr (s.cph.camera q.camera).source TallySource.ofCode q.source = some source →
       keepOr (s.cph.camera q.camera).polarity LinePolarity.ofCode q.polarity = some polarity →
       exec (.setCamera tag q) s = .next
         (let linkTally := decide (source = (s.cph.camera q.camera).source) && (s.cph.camera q.camera).linkTally
          let c : Camera := ⟨phase, preferred, source, polarity, linkTally, (s.cph.camera q.camera).raw⟩
          (s.setCph { s.cph with cameras := put s.cph.cameras q.camera c }).answered tag 0x14 .ok
           [.u2 phase, .u1 (boolCode preferred), .u1 source.code, .u1 polarity.code] rest))) ∧
  (∀ (tag : Byte) (camera state : Nat) (rest : List QueuedRequest) (s : State), s.takes (.tally tag camera state) rest →
     exec (.tally tag camera state) s = .next
       (if 7 < camera ∨ 1 < state then s.answered tag 0x17 .range [] rest
        else if (s.cph.camera camera).source = .line then s.answered tag 0x17 .wrongState [] rest
        else
         let c : Camera := { s.cph.camera camera with linkTally := decide (state = 1) }
         (s.setCph { s.cph with cameras := put s.cph.cameras camera c }).answered tag 0x17 .ok [] rest))

/-! ## The frame store and content transfer -/

/-- R36, R37, R42: DEFINE REGION defines a region that passes its checks, in the table and nowhere else. DELETE REGION
refuses a region that is on air, referred to or bound; it frees at once a region with no posted entry; otherwise its
reply is withheld, with nothing changed, until the last entry has left. -/
def Obligations.RegionsDefinedAndDeleted : Prop :=
  (∀ (tag : Byte) (q : DefineRegionReq) (rest : List QueuedRequest) (kind : RegionKind) (protect : Bool) (s : State),
     s.takes (.defineRegion tag q) rest → s.fsc.store = .ready → s.fsc.showLock = false → q.id ≤ 63 →
     RegionKind.ofCode q.kind = some kind → protectOf kind q.protect = some protect →
     16 ≤ q.width → q.width ≤ 4096 → 16 ≤ q.height → q.height ≤ 2160 → s.region q.id = none →
     let block := (q.width * q.height * 4 + 4095) / 4096
     let pages := if kind = .live then 3 * block else block
     q.base + pages ≤ s.fsc.pageTotal →
     (∀ e ∈ s.fsc.regions, q.base + pages ≤ e.2.base ∨ e.2.base + e.2.pages ≤ q.base) →
     let r : Region := ⟨kind, q.base, q.width, q.height, protect, block, pages, 0, 0, 0⟩
     exec (.defineRegion tag q) s = .next
       ((s.setFsc { s.fsc with regions := s.fsc.regions.insert q.id r }).answered tag 0x20 .ok
         [.u1 q.id, .u1 kind.code, .u4 q.base, .u2 q.width, .u2 q.height, .u1 (boolCode protect), .u2 block, .u2 pages,
           .u4 0, .u4 0, .u1 0] rest)) ∧
  (∀ (tag : Byte) (id : Nat) (r : Region) (rest : List QueuedRequest) (s : State),
     s.fsc.store = .ready → s.fsc.showLock = false → id ≤ 63 → s.region id = some r →
     let freed := s.setFsc { s.fsc with regions := s.fsc.regions.erase id }
     (s.takes (.deleteRegion tag id) rest →
       (0 < r.air ∨ 0 < r.ref ∨ s.lip.bound = some id →
         exec (.deleteRegion tag id) s = .next (s.answered tag 0x21 .inUse [] rest)) ∧
       (r.air = 0 → r.ref = 0 → s.lip.bound ≠ some id → r.posted = 0 →
         exec (.deleteRegion tag id) s =
           .next (freed.answered tag 0x21 .ok [.u1 id, .u4 r.base, .u2 r.pages] rest)) ∧
       (r.air = 0 → r.ref = 0 → s.lip.bound ≠ some id → 0 < r.posted →
         exec (.deleteRegion tag id) s = .next (s.setLkd { s.lkd with
           hold := .drain, requests := .command (.deleteRegion tag id) :: rest }))) ∧
     (s.lkd.hold = .drain → s.lkd.requests = .command (.deleteRegion tag id) :: rest →
       (r.posted = 0 → exec .regionRemoval s = .next
         ((freed.setLkd { s.lkd with hold := .free }).answered tag 0x21 .ok [.u1 id, .u4 r.base, .u2 r.pages] rest)) ∧
       (0 < r.posted → exec .regionRemoval s = .next s)))

/-- R46, R47: SET SHOW LOCK sets the show lock, whatever it was, and changes nothing else; every request that the lock
keeps out is refused with LOCKED while it is set, and changes nothing (the two that first need the store READY are
refused NOT_READY where it is not). That LOCKED comes before every other status where the rule of the request gives its
refusals no order is the model's choice (log 38). -/
def Obligations.ShowLockSetAndRefusals : Prop :=
  (∀ (tag : Byte) (rest : List QueuedRequest) (s : State), s.takes (.setShowLock tag) rest →
     exec (.setShowLock tag) s =
       .next ((s.setFsc { s.fsc with showLock := true }).answered tag 0x24 .ok [.u1 1] rest)) ∧
  (∀ (i : Instr) (kind : Nat) (tag : Byte) (body : List Byte) (rest : List QueuedRequest) (s : State),
     lockRefused i = true → requestParts i = some (kind, tag, body) → s.takes i rest → s.fsc.showLock = true →
     exec i s = .next (s.answered tag (byte kind)
       (if (kind = 0x20 ∨ kind = 0x21) ∧ s.fsc.store ≠ .ready then .notReady else .locked) [] rest))

/-- R47: while the show lock is set, in every store state, no command but POWER_ON and RESET_PIN clears it, and no full
reset over the link comes to be due; RESET with scope FULL is refused with LOCKED. After every kind of full reset the
lock is clear. -/
def Obligations.ShowLockStays : Prop :=
  (∀ s t : State, s.lockHolds → s.fsc.showLock = true → step s = .next t →
     (∀ r rest, s.pending ≠ .powerOn r :: rest ∧ s.pending ≠ .resetPin r :: rest) →
     t.fsc.showLock = true ∧ t.lockHolds) ∧
  (∀ (c : Instr) (r : ResetIn) (s : State),
     (c = .powerOn r ∨ c = .resetPin r ∨ c = .fullReset r ∧ s.lkd.hold = .resetDue .full) →
     ∃ t, exec c s = .next t ∧ t.fsc.showLock = false) ∧
  (∀ (tag : Byte) (rest : List QueuedRequest) (s : State), s.takes (.reset tag 1) rest → s.fsc.showLock = true →
     exec (.reset tag 1) s = .next (s.answered tag 0x05 .locked [] rest))

/-- R51 to R54: a write or fill that passes every check joins the posting buffer where it has a place, and its reply
is withheld where it holds 8 entries; the first check that fails gives the status it is refused with, the six checks in
the order of the tables of R52 and R54. When a place is
free the request that waits is checked again, and accepted or refused; then the request queue goes on. -/
def Obligations.WritesAndFillsPosted : Prop :=
  (∀ (q : WriteContentReq) (s : State),
     writeFailing q s =
       if s.fsc.store ≠ .ready then some .notReady
       else if 63 < q.region ∨ q.pixels = [] then some .range
       else match s.region q.region with
         | none => some .noSuch
         | some r =>
           if s.lip.bound = some q.region then some .inUse
           else if r.width * r.height < q.offset + q.pixels.length then some .range
           else if r.protect = true ∧ 0 < r.air then some .onAir
           else none) ∧
  (∀ (q : FillRegionReq) (s : State),
     fillFailing q s =
       if s.fsc.store ≠ .ready then some .notReady
       else if 63 < q.region ∨ 1023 < q.colour.r ∨ 1023 < q.colour.g ∨ 1023 < q.colour.b ∨ q.rect.width = 0 ∨
         q.rect.height = 0 then some .range
       else match s.region q.region with
         | none => some .noSuch
         | some r =>
           if s.lip.bound = some q.region then some .inUse
           else if r.width < q.rect.x + q.rect.width ∨ r.height < q.rect.y + q.rect.height then some .range
           else if r.protect = true ∧ 0 < r.air then some .onAir
           else none) ∧
  (∀ (tag : Byte) (rest : List QueuedRequest) (s : State),
     (∀ q, s.takes (.writeContent tag q) rest →
       (∀ st, writeFailing q s = some st →
         exec (.writeContent tag q) s = .next (s.answered tag 0x25 st [] rest)) ∧
       (∀ r, s.fsc.store = .ready → q.region ≤ 63 → q.pixels ≠ [] → s.region q.region = some r →
         s.lip.bound ≠ some q.region → q.offset + q.pixels.length ≤ r.width * r.height →
         ¬(r.protect = true ∧ 0 < r.air) →
         exec (.writeContent tag q) s = .next
           (if s.fsc.posting.length < 8 then
             (s.setFsc { s.fsc with
               regions := s.fsc.regions.modify q.region (fun x => { x with posted := x.posted + 1 })
               posting := s.fsc.posting ++ [⟨q.region, .write q.offset (q.pixels.map (fun w => w &&& 0x3FFFFFFF)), 0⟩]
               }).answered tag 0x25 .ok [.u1 q.region, .u4 q.pixels.length, .u1 (s.fsc.posting.length + 1)] rest
            else s.setLkd { s.lkd with hold := .place, requests := .command (.writeContent tag q) :: rest }))) ∧
     (∀ q, s.takes (.fillRegion tag q) rest →
       (∀ st, fillFailing q s = some st → exec (.fillRegion tag q) s = .next (s.answered tag 0x26 st [] rest)) ∧
       (∀ r, s.fsc.store = .ready → q.region ≤ 63 → q.colour.r ≤ 1023 → q.colour.g ≤ 1023 → q.colour.b ≤ 1023 →
         0 < q.rect.width → 0 < q.rect.height → s.region q.region = some r → s.lip.bound ≠ some q.region →
         q.rect.x + q.rect.width ≤ r.width → q.rect.y + q.rect.height ≤ r.height → ¬(r.protect = true ∧ 0 < r.air) →
         exec (.fillRegion tag q) s = .next
           (if s.fsc.posting.length < 8 then
             (s.setFsc { s.fsc with
               regions := s.fsc.regions.modify q.region (fun x => { x with posted := x.posted + 1 })
               posting := s.fsc.posting ++ [⟨q.region, .fill q.rect q.colour, 0⟩]
               }).answered tag 0x26 .ok
               [.u1 q.region, .u4 (q.rect.width * q.rect.height), .u1 (s.fsc.posting.length + 1)] rest
            else s.setLkd { s.lkd with hold := .place, requests := .command (.fillRegion tag q) :: rest })))) ∧
  (∀ (tag : Byte) (q : WriteContentReq) (f : FillRegionReq) (rest : List QueuedRequest) (s : State),
     s.lkd.hold = .place → s.fsc.posting.length < 8 →
     let next (t : State) (kind : Byte) (st : Status) (fields : List Field) : Result :=
       .next ((t.setLkd { s.lkd with hold := .free }).answered tag kind st fields rest)
     let accepted (e : PostEntry) : State := s.setFsc { s.fsc with
       regions := s.fsc.regions.modify e.region (fun x => { x with posted := x.posted + 1 })
       posting := s.fsc.posting ++ [e] }
     (s.lkd.requests = .command (.writeContent tag q) :: rest →
       (∀ st, writeFailing q s = some st → exec .waitingRequestAccept s = next s 0x25 st []) ∧
       (writeFailing q s = none →
         exec .waitingRequestAccept s = next (accepted (writeEntry q)) 0x25 .ok
           [.u1 q.region, .u4 q.pixels.length, .u1 (s.fsc.posting.length + 1)])) ∧
     (s.lkd.requests = .command (.fillRegion tag f) :: rest →
       (∀ st, fillFailing f s = some st → exec .waitingRequestAccept s = next s 0x26 st []) ∧
       (fillFailing f s = none →
         exec .waitingRequestAccept s = next (accepted (fillEntry f)) 0x26 .ok
           [.u1 f.region, .u4 (f.rect.width * f.rect.height), .u1 (s.fsc.posting.length + 1)])))

/-- R55 to R60: a burst granted to posting retirement writes the pixels of the head entry, up to 256 of a fill, and no
other byte; the entry leaves with its last pixel, and its region's posted entries outstanding falls by 1. A burst for
a region that is protected and on air, or bound, writes nothing: the entry is discarded, with its record and
WRITE_DISCARDED. A write is one burst of its whole list; a fill takes the pixels of its rectangle in raster order, from
the first one not done; and a discard names the region offset of the first pixel that is not written, and how many are
dropped. An offset or a count above 65535 goes into its field of the notice by its low bits (the model's choice: log
24). -/
def Obligations.BurstsWrittenOrDiscarded : Prop :=
  (∀ (e : PostEntry) (r : Region) (cause : DiscardCause) (counter : BitVec 32),
     let d := discardOf e r cause counter
     d.region = e.region ∧ d.cause = cause ∧ d.counter = counter ∧
     match e.kind with
     | .write offset pixels =>
       e.total = pixels.length ∧ (e.burst r).length = pixels.length ∧
       (∀ (i : Nat) (w : Word), pixels[i]? = some w → (e.burst r)[i]? = some (offset + i, w)) ∧
       d.isFill = false ∧ d.offset = offset ∧ d.dropped = pixels.length - e.done
     | .fill rect colour =>
       let place (p : Nat) : Nat := (rect.y + p / rect.width) * r.width + (rect.x + p % rect.width)
       e.total = rect.width * rect.height ∧
       (e.burst r).length = min 256 (rect.width * rect.height - e.done) ∧
       (∀ i, i < (e.burst r).length → (e.burst r)[i]? = some (place (e.done + i), wordOf colour)) ∧
       d.isFill = true ∧ d.offset = place e.done ∧ d.dropped = rect.width * rect.height - e.done) ∧
  (∀ (asks : Asks) (e : PostEntry) (rest : List PostEntry) (r : Region) (s : State),
     asks.scan = none → asks.live = 0 → s.fsc.posting = e :: rest → s.region e.region = some r →
     s.fsc.inStore r = true → ¬(r.protect = true ∧ 0 < r.air) → s.lip.bound ≠ some e.region →
     ∃ t : State, exec (.burstGrant asks) s = .next t ∧
       t.fsc.mem = (s.fsc.writePixels r (e.burst r)).mem ∧
       (∀ a, (∀ p ∈ e.burst r, ∀ b, s.fsc.pixelAddr r 0 p.1 = some b → a < b ∨ b + 3 < a) →
         Memory.read t.fsc.mem a = Memory.read s.fsc.mem a) ∧
       (e.total ≤ e.done + (e.burst r).length →
         t.fsc.posting = rest ∧
         t.fsc.regions = s.fsc.regions.modify e.region (fun x => { x with posted := x.posted - 1 })) ∧
       (e.done + (e.burst r).length < e.total →
         t.fsc.posting = { e with done := e.done + (e.burst r).length } :: rest ∧ t.fsc.regions = s.fsc.regions) ∧
       t = s.setFsc { s.fsc with mem := t.fsc.mem, posting := t.fsc.posting, regions := t.fsc.regions }) ∧
  (∀ (asks : Asks) (e : PostEntry) (rest : List PostEntry) (r : Region) (cause : DiscardCause) (s : State),
     asks.scan = none → asks.live = 0 → s.fsc.posting = e :: rest → s.region e.region = some r →
     (r.protect = true ∧ 0 < r.air ∧ cause = .onAir ∨
       ¬(r.protect = true ∧ 0 < r.air) ∧ s.lip.bound = some e.region ∧ cause = .bound) →
     let d := discardOf e r cause s.rtu.counter
     exec (.burstGrant asks) s = .next
       ((s.setFsc { s.fsc with
           posting := rest, discards := min 65535 (s.fsc.discards + 1), lastDiscard := some d
           regions := s.fsc.regions.modify e.region (fun x => { x with posted := x.posted - 1 })
         }).setLkd (s.lkd.raise ⟨.writeDiscarded, s.rtu.counter,
           [.u2 e.region, .u2 (boolCode d.isFill), .u2 cause.code, .u2 d.offset, .u2 (e.total - e.done)]⟩)))

/-- R48, R61, R62: scan fetch and live capture come before posting retirement, and retirement before a content read: a
grant that finds a higher requester waiting gives the lower one nothing, and a content read is granted with the posting
buffer empty (which requesters wait comes as an operand and from the buffer: log 10). READ CONTENT proceeds when its region has no
entry outstanding, and its grant answers with the pixels that stand in DRAM at that moment, their two top bits 0, with
no byte changed. -/
def Obligations.ContentReadAtItsTurn : Prop :=
  (∀ (asks : Asks) (s : State),
     (asks.scan ≠ none ∨ 0 < asks.live →
       exec (.burstGrant asks) s = .next s ∧ exec (.contentReadGrant asks) s = .next s) ∧
     (s.fsc.posting ≠ [] → exec (.contentReadGrant asks) s = .next s)) ∧
  (∀ (tag : Byte) (q : ReadContentReq) (r : Region) (asks : Asks) (rest : List QueuedRequest) (s : State),
     s.region q.region = some r →
     (s.takes (.readContent tag q) rest → s.fsc.store = .ready → q.region ≤ 63 → 0 < q.count →
       q.offset + q.count ≤ r.width * r.height →
       exec (.readContent tag q) s = .next (s.setLkd { s.lkd with
         hold := if r.posted = 0 then .readGrant else .readDrain,
         requests := .command (.readContent tag q) :: rest })) ∧
     (s.lkd.hold = .readDrain → s.lkd.requests = .command (.readContent tag q) :: rest →
       exec .readProceeds s = .next
         (if r.posted = 0 then s.setLkd { s.lkd with hold := .readGrant } else s)) ∧
     (s.lkd.hold = .readGrant → s.lkd.requests = .command (.readContent tag q) :: rest → asks.scan = none →
       asks.live = 0 → s.fsc.posting = [] → s.fsc.inStore r = true →
       let buffer := match r.kind with
         | .still => none
         | .live => if s.lip.bound = some q.region then some (s.lip.newest.getD 0) else some 0
       exec (.contentReadGrant asks) s = .next
         ((s.setLkd { s.lkd with hold := .free }).answered tag 0x27 .ok
           ([.u1 q.region, .u4 q.offset, opt1 buffer, s.counterField, .u1 q.count] ++
             (List.range q.count).map (fun i =>
               .word (s.fsc.readPixel r (buffer.getD 0) (q.offset + i) &&& 0x3FFFFFFF))) rest)))

/-! ## The live input -/

/-- R65, R66, R71: SET LIVE INPUT that changes nothing, and one that binds or unbinds, with LIVE_STATE. That the pixels
that waited are dropped, and the size of the frame counts in the notice, are the model's choices (log 24, 40). -/
def Obligations.LiveInputBound : Prop :=
  ∀ (tag : Byte) (region : Option Nat) (rest : List QueuedRequest) (s : State),
    s.takes (.setLiveInput tag region) rest → s.fsc.showLock = false →
    (∀ id, region = some id → id ≤ 63 ∧ ∃ r, s.region id = some r ∧ r.kind = .live ∧
      (s.lip.bound = some id ∨ r.air = 0)) →
    (region = s.lip.bound →
      exec (.setLiveInput tag region) s =
        .next (s.answered tag 0x29 .ok [opt1 s.lip.bound, .u1 s.lip.port.code] rest)) ∧
    (region ≠ s.lip.bound → s.airOf s.lip.bound = 0 →
      ∃ t : State, exec (.setLiveInput tag region) s =
          .next (t.repliedFrom s.lkd.ready.length tag 0x29 .ok [opt1 region, .u1 t.lip.port.code] rest) ∧
        t.lip.bound = region ∧ t.lip.port = (if region.isSome = true then .searching else .off) ∧
        t.lip.writer = (if region.isSome = true then some 0 else none) ∧ t.lip.newest = none ∧
        (∀ e ∈ t.lip.latch.toList, e = none) ∧
        t.lip.capture.phase = .idle ∧ t.lip.progress = none ∧ t.lip.queue = [] ∧
        t.lkd = s.lkd.raise ⟨.liveState, s.rtu.counter,
          [.u2 s.lip.port.code, .u2 t.lip.port.code, opt2 region, .u2 LiveCause.settings.code, .u4 t.lip.complete,
            .u4 t.lip.short, .u4 t.lip.skipped, .u4 t.lip.dropped]⟩ ∧
        (region ≠ none → t.lip.consecutive = 0 ∧ t.lip.silence = 0 ∧ t.lip.complete = 0 ∧ t.lip.short = 0 ∧
          t.lip.skipped = 0 ∧ t.lip.dropped = 0 ∧ t.lip.shown = false) ∧
        (region = none → t.lip.complete = s.lip.complete ∧ t.lip.short = s.lip.short ∧
          t.lip.skipped = s.lip.skipped ∧ t.lip.dropped = s.lip.dropped) ∧
        t = { s with lip := t.lip, lkd := t.lkd }) ∧
    (region ≠ s.lip.bound → 0 < s.airOf s.lip.bound →
      exec (.setLiveInput tag region) s = .next (s.answered tag 0x29 .inUse [] rest))

/-- R48, R67 to R69, R72: how an input frame ends. It completes when the live capture access that writes its last pixels
is made, which writes those pixels and no other byte. The buffer rule: with a buffer free of the layers' latches the
writer's buffer becomes the newest and the writer moves to the lowest free one; with none the frame is dropped. The
second frame in a row in SEARCHING enters RUNNING, with LIVE_STATE (R71; layout: log 24). While more pixels wait than
one line's, the frame does not complete. A frame start that finds a frame in progress finds it short, and one in LOST
enters SEARCHING. That INPUT_FRAME_COMPLETE stands for the last access, and finds no scan fetch waiting, is the model's
choice (log 10, 27), and so is it that capture progress stands behind the last pixel written, and that the waiting pixels
of a short frame stay and are not counted in the next frame's progress (log 40). -/
def Obligations.InputFrameCompletes : Prop :=
  (∀ (r : Region) (w : Nat) (s : State), s.lip.capture.phase = .received → s.lip.bound.bind s.region = some r →
     s.fsc.inStore r = true → s.lip.writer = some w → s.lip.queue ≠ [] →
     (lineRun r.width s.lip.queue.length s.lip.queue ≠ s.lip.queue → exec .inputFrameComplete s = .next s) ∧
     (lineRun r.width s.lip.queue.length s.lip.queue = s.lip.queue →
       ∃ t : State, exec .inputFrameComplete s = .next t ∧ t.lip.complete = min 4294967295 (s.lip.complete + 1) ∧
         t.lip.queue = [] ∧ t.lip.latch = s.lip.latch ∧ t.lip.bound = s.lip.bound ∧ t.lip.capture.phase = .over ∧
         (∀ a, (∀ p ∈ s.lip.queue, ∀ b, s.fsc.pixelAddr r p.buffer p.offset = some b → a < b ∨ b + 3 < a) →
           Memory.read t.fsc.mem a = Memory.read s.fsc.mem a) ∧
         (∀ p, s.lip.queue.getLast? = some p → (s.fsc.pixelAddr r p.buffer p.offset).isSome = true →
           t.fsc.readPixel r p.buffer p.offset = p.word) ∧
         (∀ p, s.lip.queue.getLast? = some p → s.lip.earlier < s.lip.queue.length →
           t.lip.progress = some (p.offset / r.width, p.offset % r.width + 1)) ∧
         (∀ b, [0, 1, 2].find? (fun b => decide (b ≠ w) && !s.lip.latched b) = some b →
           t.lip.newest = some w ∧ t.lip.writer = some b ∧ t.lip.shown = false ∧ t.lip.dropped = s.lip.dropped ∧
           t.lip.skipped = if s.lip.newest ≠ none ∧ s.lip.shown = false then min 4294967295 (s.lip.skipped + 1)
             else s.lip.skipped) ∧
         ([0, 1, 2].find? (fun b => decide (b ≠ w) && !s.lip.latched b) = none →
           t.lip.newest = s.lip.newest ∧ t.lip.writer = some w ∧ t.lip.shown = s.lip.shown ∧
           t.lip.dropped = min 4294967295 (s.lip.dropped + 1) ∧ t.lip.skipped = s.lip.skipped) ∧
         (s.lip.port = .searching → 1 ≤ s.lip.consecutive → t.lip.port = .running ∧ t.lip.consecutive = 0 ∧
           t.lkd = s.lkd.raise ⟨.liveState, s.rtu.counter,
             [.u2 LiveState.searching.code, .u2 LiveState.running.code, opt2 s.lip.bound, .u2 LiveCause.feedFound.code,
               .u4 t.lip.complete, .u4 t.lip.short, .u4 t.lip.skipped, .u4 t.lip.dropped]⟩) ∧
         (s.lip.port = .searching → s.lip.consecutive = 0 →
           t.lip.port = .searching ∧ t.lip.consecutive = 1 ∧ t.lkd = s.lkd) ∧
         (s.lip.port ≠ .searching →
           t.lip.port = s.lip.port ∧ t.lip.consecutive = s.lip.consecutive ∧ t.lkd = s.lkd) ∧
         t = { s with fsc := { s.fsc with mem := t.fsc.mem }, lip := t.lip, lkd := t.lkd })) ∧
  (∀ s : State,
     s.lip.capture.phase = .started ∨ s.lip.capture.phase = .line ∨ s.lip.capture.phase = .received →
     let found : Lip := { s.lip with
       short := min 4294967295 (s.lip.short + 1), consecutive := 0, silence := 0, capture := ⟨.started, 0, 0⟩
       progress := some (0, 0), earlier := s.lip.queue.length }
     (s.lip.port = .searching ∨ s.lip.port = .running →
       exec .inputFrameStart s = .next (s.setLip found)) ∧
     (s.lip.port = .lost → ∃ t : State, exec .inputFrameStart s = .next t ∧
       t.lip = { found with port := .searching } ∧ t = { s with
         lip := t.lip
         lkd := s.lkd.raise ⟨.liveState, s.rtu.counter,
           [.u2 LiveState.lost.code, .u2 LiveState.searching.code, opt2 s.lip.bound, .u2 LiveCause.feedSeen.code,
             .u4 t.lip.complete, .u4 t.lip.short, .u4 t.lip.skipped, .u4 t.lip.dropped]⟩ }))

/-- R67, R68, R70: frame starts, line strobes and pixels of the live input; a frame start that finds a frame in progress
is in InputFrameCompletes. A frame start in LOST enters SEARCHING with LIVE_STATE (R71; layout: log 24). Capture
progress moves to line 0, pixel 0 with a frame start, and no pixel moves it before it is written. That R is the highest
component of a pixel word (log 7), and that the waiting pixels of the frames before stay, and line and pixel after a
frame has ended, are the model's choices (log 40). -/
def Obligations.CaptureEvents : Prop :=
  ∀ (r g b : BitVec 10) (s : State),
    (s.lip.port = .off → exec .inputFrameStart s = .next s) ∧
    (s.lip.port = .searching ∨ s.lip.port = .running → s.lip.capture.phase = .idle ∨ s.lip.capture.phase = .over →
      exec .inputFrameStart s = .next (s.setLip { s.lip with
        silence := 0, capture := ⟨.started, 0, 0⟩, progress := some (0, 0), earlier := s.lip.queue.length })) ∧
    (s.lip.port = .lost → s.lip.capture.phase = .idle ∨ s.lip.capture.phase = .over →
      ∃ t : State, exec .inputFrameStart s = .next t ∧
        t.lip = { s.lip with
          port := .searching, consecutive := 0, silence := 0, capture := ⟨.started, 0, 0⟩, progress := some (0, 0)
          earlier := s.lip.queue.length } ∧
        t = { s with
          lip := t.lip
          lkd := s.lkd.raise ⟨.liveState, s.rtu.counter,
            [.u2 LiveState.lost.code, .u2 LiveState.searching.code, opt2 s.lip.bound, .u2 LiveCause.feedSeen.code,
              .u4 s.lip.complete, .u4 s.lip.short, .u4 s.lip.skipped, .u4 s.lip.dropped]⟩ }) ∧
    (∀ reg, s.lip.bound.bind s.region = some reg →
      (s.lip.capture.phase = .started →
        exec .lineStrobe s = .next (s.setLip { s.lip with capture := ⟨.line, 0, 0⟩ })) ∧
      (s.lip.capture.phase = .line → reg.width ≤ s.lip.capture.pixel →
        exec .lineStrobe s = .next (s.setLip { s.lip with capture := ⟨.line, s.lip.capture.line + 1, 0⟩ })) ∧
      (s.lip.capture.phase = .line → s.lip.capture.pixel < reg.width →
        exec .lineStrobe s = .next (s.setLip { s.lip with
          short := min 4294967295 (s.lip.short + 1), consecutive := 0
          capture := { s.lip.capture with phase := .over } })) ∧
      (s.lip.capture.phase = .line →
        let c := s.lip.capture
        exec (.inputPixel r g b) s = .next (s.setLip { s.lip with
          queue := if c.pixel < reg.width ∧ c.line < reg.height then
              s.lip.queue ++ [⟨s.lip.writer.getD 0, c.line * reg.width + c.pixel, 0#2 ++ r ++ g ++ b⟩]
            else s.lip.queue
          capture := ⟨if c.line + 1 = reg.height ∧ c.pixel + 1 = reg.width then .received else .line, c.line,
            c.pixel + 1⟩ })))

/-- R70: the boundary that brings the silence count to 4 in RUNNING enters LOST; the newest buffer stays, so that the
layers go on showing it, and LIVE_STATE is raised (R71; layout: log 24). That FEED_LOST is the whole boundary (log 1),
and is due at a silence count of 3 alone (log 27), that the pixels that waited are dropped, and that line and pixel of
capture progress stay (log 40), are the model's choices. -/
def Obligations.FeedLostAtFourthBoundary : Prop :=
  ∀ (lines : BitVec 8) (s : State), s.rtu.gen ≠ .locked → s.lip.port = .running → s.lip.silence = 3 →
    ¬(s.lip.capture.phase = .received ∧ s.lip.queue = []) →
    ∃ t : State, exec (.feedLost lines) s = .next t ∧ t.lip.port = .lost ∧ t.lip.silence = 4 ∧ t.lip.queue = [] ∧
      t.lip.progress = s.lip.progress ∧
      (∃ before later : List Notice, t.lkd = later.foldl Lkd.raise
        ((before.foldl Lkd.raise s.lkd).raise ⟨.liveState, s.rtu.counter + 1,
          [.u2 LiveState.running.code, .u2 LiveState.lost.code, opt2 s.lip.bound, .u2 LiveCause.feedLost.code,
            .u4 t.lip.complete, .u4 t.lip.short, .u4 t.lip.skipped, .u4 t.lip.dropped]⟩)) ∧
      t.lip.newest = s.lip.newest ∧ t.lip.writer = s.lip.writer ∧ t.lip.bound = s.lip.bound ∧
      t.rtu.counter = s.rtu.counter + 1 ∧ s.boundaryKeeps t

/-! ## Walls, tiles and layers -/

/-- R76: DEFINE WALL makes the wall with its four layers on NONE, sets its five level targets to 65535 and removes the
fades on them; no other wall, target, tile or zone changes, and no other block but the cue engine that hears of the
removals. -/
def Obligations.WallDefined : Prop :=
  ∀ (tag : Byte) (q : DefineWallReq) (rest : List QueuedRequest) (s : State),
    s.takes (.defineWall tag q) rest → s.fsc.showLock = false → q.wall ≤ 3 → 16 ≤ q.width → q.width ≤ 7680 →
    16 ≤ q.height → q.height ≤ 4320 → 1 ≤ q.refresh → q.refresh ≤ 8 → q.background.r ≤ 1023 → q.background.g ≤ 1023 →
    q.background.b ≤ 1023 → s.wall q.wall = none → s.areas + q.width * q.height ≤ 8388608 →
    ∃ (t : State) (fields : List Field), exec (.defineWall tag q) s =
        .next (t.repliedFrom s.lkd.ready.length tag 0x30 .ok fields rest) ∧
      (∃ x, t.wall q.wall = some x ∧ x.width = q.width ∧ x.height = q.height ∧ x.refresh = q.refresh ∧
        x.background = q.background ∧ x.mode = .normal ∧ x.pattern = .bars75 ∧ x.pending = none ∧ x.held = none ∧
        x.shedding = false ∧ x.clipFlag = false ∧ x.shedFlag = false ∧ x.frame = none ∧
        ∀ l ∈ x.layers.toList, l = ⟨none, ⟨0, 0, 16, 16⟩, 0, 0⟩) ∧
      (∀ w, w ≠ q.wall → t.wall w = s.wall w) ∧
      (∀ n ∈ wallTargets q.wall, t.level n = 65535 ∧ t.lvp.fades.find n = none) ∧
      (∀ n, n ∉ wallTargets q.wall → t.level n = s.level n ∧ t.lvp.fades.find n = s.lvp.fades.find n) ∧
      t.lvp.channels = s.lvp.channels ∧ t.lvp.curves = s.lvp.curves ∧ t.lvp.manual = s.lvp.manual ∧
      t.cue.cues = s.cue.cues ∧ t.cue.waits = s.cue.waits ∧
      t = { s with
        wse := { s.wse with walls := t.wse.walls }, cue := t.cue, lvp := t.lvp, lkd := t.lkd }

/-- R78, R139: DELETE WALL takes the wall with its tiles, its zones, its latches, its running and pending fades, and
nothing else: each region loses the air counts of the layers and held layers that name it, and the levels stay. R90: a
chain left with no tile becomes IDLE and raises CHAIN_STATE with the wall that it belonged to (the model's choice: log
21), and a chain of the wall goes low at once, also one that left it earlier in the frame and still sends its tiles (the
model's choice: log 41). R123, R125: each fade removed lowers the count of the cue that owns it; a cue whose count is
then 0 completes, and starts the follow timer if it is the most recent one. That the notices of the chains come before
those of the cues is the model's choice (log 18). -/
def Obligations.WallDeleted : Prop :=
  ∀ (tag : Byte) (w : Nat) (x : Wall) (rest : List QueuedRequest) (s : State),
    s.takes (.deleteWall tag w) rest → s.fsc.showLock = false → w ≤ 3 → s.wall w = some x →
    let named (id : Nat) : Nat := x.layers.toList.countP (fun l => decide (l.source = some id))
    let held (id : Nat) : Nat := match x.held with
      | none => 0
      | some h => h.layers.toList.countP (fun l => decide (l.layer.source = some id))
    let ofWall (c : Nat) : Prop := chainWall c s.wse.tiles = some w
    let removed (n : Nat) : Nat :=
      (wallTargets w).countP (fun k => decide ((s.lvp.fades.find k).map (·.owner) = some (.cue n)))
    let lowered : List Active := s.cue.active.map (fun a => { a with outstanding := a.outstanding - removed a.cue })
    let done : List Active := lowered.filter (fun a => decide (a.outstanding = 0))
    ∃ t : State, exec (.deleteWall tag w) s =
        .next (t.repliedFrom s.lkd.ready.length tag 0x31 .ok
          [.u1 w, .u2 (s.wse.tiles.countP (fun e => decide (e.2.wall = w))),
            .u1 (s.wse.zones.countP (fun e => decide (e.2.wall = w)))] rest) ∧
      t.wse.walls = s.wse.walls.filter (fun e => decide (e.1 ≠ w)) ∧
      t.wse.tiles = s.wse.tiles.filter (fun e => decide (e.2.wall ≠ w)) ∧
      t.wse.zones = s.wse.zones.filter (fun e => decide (e.2.wall ≠ w)) ∧
      t.wse.frameTiles = s.wse.frameTiles.filter (fun e => decide (e.2.wall ≠ w ∧ ¬ofWall e.2.chain)) ∧
      s.chainsFollow t ∧
      (∀ c, c < 8 →
        let emptied := 0 < tileCount c s.wse.tiles ∧ tileCount c t.wse.tiles = 0
        (t.chain c).sent = (s.chain c).sent ∧ (t.chain c).returned = (s.chain c).returned ∧
          (t.chain c).whole = (if emptied then false else (s.chain c).whole) ∧
          (t.chain c).out = (if ofWall c ∨ s.carries w c = true then [] else (s.chain c).out)) ∧
      (∀ i, i < 16 → at_ t.lip.latch i none = if i / 4 = w then none else at_ s.lip.latch i none) ∧
      t.fsc.regions = s.fsc.regions.map (fun e => (e.1, { e.2 with air := e.2.air - named e.1 - held e.1 })) ∧
      t.lvp.fades = s.lvp.fades.filter (fun e => !(wallTargets w).contains e.1) ∧
      t.lvp.manual = s.lvp.manual.filter (fun m => !(wallTargets w).contains m.target) ∧
      t.cue.active = lowered.filter (fun a => !done.any (fun d => decide (d.cue = a.cue))) ∧
      t.cue.follow = (match s.cue.standby.bind s.cue.cues.find with
        | some ⟨.follow n, _⟩ => if ∃ d ∈ done, s.cue.recent = some d.cue then some ⟨n, n⟩ else s.cue.follow
        | _ => s.cue.follow) ∧
      (let emptied : List Nat := (List.range 8).filter (fun c =>
        decide (0 < tileCount c s.wse.tiles ∧ tileCount c t.wse.tiles = 0 ∧ (s.chain c).state ≠ .idle))
       let chainNotices : List Notice := emptied.map (fun c => ⟨.chainState, s.rtu.counter,
        [.u2 c, .u2 (s.chain c).state.code, .u2 ChainState.idle.code, .u2 w, .u2 0]⟩)
       let cueNotices : List Notice := done.map (fun d => ⟨.cueComplete, s.rtu.counter,
        [.u2 d.cue, .u2 CompleteCause.done.code, .u4 d.fireFrame.toNat]⟩)
       t.lkd = (chainNotices ++ cueNotices).foldl Lkd.raise s.lkd) ∧
      t = { s with
        fsc := { s.fsc with regions := t.fsc.regions }
        lip := { s.lip with latch := t.lip.latch }
        wse := { s.wse with
          walls := t.wse.walls, tiles := t.wse.tiles, frameTiles := t.wse.frameTiles, zones := t.wse.zones
          chains := t.wse.chains }
        cue := { s.cue with active := t.cue.active, follow := t.cue.follow }
        lvp := { s.lvp with fades := t.lvp.fades, manual := t.lvp.manual }
        lkd := t.lkd }

/-- R39, R80, R83: SET LAYER writes the current parameters of one layer at once and moves the air counts: the old
source loses 1 and the new one gains 1, a source that stays keeps its count; the frame in progress is not touched. SET
WALL MODE makes the mode pending and changes nothing else; that its reply carries a pattern and a colour with each mode
is the model's choice (log 23). -/
def Obligations.LayerAndModeSet : Prop :=
  (∀ (tag : Byte) (q : SetLayerReq) (x : Wall) (rest : List QueuedRequest) (s : State),
     s.takes (.setLayer tag q) rest → q.wall ≤ 3 → 1 ≤ q.layer → q.layer ≤ 4 → s.wall q.wall = some x →
     -8192 ≤ q.px → q.px ≤ 8191 → -8192 ≤ q.py → q.py ≤ 8191 →
     (∀ id, q.source = some id → id ≤ 63 ∧ ∃ r, s.region id = some r ∧ 0 < q.rect.width ∧ 0 < q.rect.height ∧
       q.rect.x + q.rect.width ≤ r.width ∧ q.rect.y + q.rect.height ≤ r.height) →
     let old := (x.layer q.layer).source
     ∃ (t : State) (fields : List Field),
       exec (.setLayer tag q) s = .next (t.answered tag 0x32 .ok fields rest) ∧
       t.wall q.wall = some { x with layers := put x.layers (q.layer - 1) ⟨q.source, q.rect, q.px, q.py⟩ } ∧
       (∀ w, w ≠ q.wall → t.wall w = s.wall w) ∧
       (∀ id, t.region id = (s.region id).map (fun r => { r with
         air := if old = q.source then r.air
           else if old = some id then r.air - 1
           else if q.source = some id then r.air + 1 else r.air })) ∧
       t = { s with
         fsc := { s.fsc with regions := t.fsc.regions }, wse := { s.wse with walls := t.wse.walls } }) ∧
  (∀ (tag : Byte) (q : SetWallModeReq) (x : Wall) (mode : WallMode) (pattern : Pattern) (rest : List QueuedRequest)
     (s : State),
     s.takes (.setWallMode tag q) rest → q.wall ≤ 3 → s.wall q.wall = some x →
     modeOf q.mode q.pattern q.colour = some (mode, pattern) →
     exec (.setWallMode tag q) s = .next
       ((s.setWse { s.wse with
         walls := s.wse.walls.modify q.wall (fun y => { y with pending := some (mode, pattern) })
         }).answered tag 0x33 .ok (modeFields x.mode x.pattern ++ modeFields mode pattern) rest))

/-- R83, R85: what a boundary makes of a wall's mode. A pending mode becomes the mode. Entering FREEZE the wall holds
its four layers, their opacities and live buffers and its brightness; leaving it they are released; a wall that stays
frozen keeps what it holds. R39, R73: the latch table entries of its layers that show the bound region name the newest
buffer, as HELD for a wall that enters FREEZE and as FRAME for one that is not frozen, and stay for one that stays
frozen; each held region's air count goes up by the layers that come to hold it, and down by those that held it. -/
def Obligations.FreezeHoldsAndReleases : Prop :=
  ∀ (w : Nat) (x : Wall) (s : State), s.wall w = some x →
    (x.pending = none → (settleMode w s).wall w = some x) ∧
    (∀ m p, x.pending = some (m, p) → ∃ y, (settleMode w s).wall w = some y ∧ y.mode = m ∧ y.pending = none ∧
      y.pattern = (if m = .test then p else x.pattern) ∧ y.layers = x.layers ∧
      (m = .freeze → x.mode ≠ .freeze → ∃ h, y.held = some h ∧ h.brightness = s.level (784 + w) ∧
        ∀ i, i < 4 → at_ h.layers i default = ⟨at_ x.layers i Layer.none_, s.level (768 + w * 4 + i),
          if (at_ x.layers i Layer.none_).source ≠ none ∧ (at_ x.layers i Layer.none_).source = s.lip.bound
          then s.lip.newest else none⟩) ∧
      (m = .freeze → x.mode = .freeze → y.held = x.held) ∧
      (m ≠ .freeze → x.mode = .freeze → y.held = none) ∧
      (m ≠ .freeze → x.mode ≠ .freeze → y.held = x.held)) ∧
    (w ≤ 3 →
      let t := settleMode w s
      let mode := match x.pending with
        | none => x.mode
        | some (m, _) => m
      let newest (i : Nat) : Option Nat :=
        if (at_ x.layers i Layer.none_).source ≠ none ∧ (at_ x.layers i Layer.none_).source = s.lip.bound
        then s.lip.newest else none
      let named (id : Nat) : Nat := x.layers.toList.countP (fun l => decide (l.source = some id))
      let held (id : Nat) : Nat := match x.held with
        | none => 0
        | some h => h.layers.toList.countP (fun l => decide (l.layer.source = some id))
      (∀ i, i < 4 → at_ t.lip.latch (4 * w + i) none =
        if mode = .freeze ∧ x.mode = .freeze then at_ s.lip.latch (4 * w + i) none
        else (newest i).map (fun b => ⟨b, if mode = .freeze then .held else .frame⟩)) ∧
      (∀ i, i < 16 → i / 4 ≠ w → at_ t.lip.latch i none = at_ s.lip.latch i none) ∧
      t.lip.shown = (s.lip.shown ||
        decide (¬(mode = .freeze ∧ x.mode = .freeze) ∧ ∃ i ∈ List.range 4, newest i ≠ none)) ∧
      (∀ id, t.region id = (s.region id).map (fun r => { r with
        air := if mode = .freeze ∧ x.mode ≠ .freeze then r.air + named id
          else if mode ≠ .freeze ∧ x.mode = .freeze then r.air - held id else r.air })) ∧
      t = { s with
        fsc := { s.fsc with regions := t.fsc.regions }
        lip := { s.lip with latch := t.lip.latch, shown := t.lip.shown }
        wse := { s.wse with walls := t.wse.walls } })

/-- R91: the admission of a boundary never lets the pixel passes of a frame exceed 16,777,216: the running total is
the sum of the areas of the walls and of the visible pixels of the layers admitted. It judges the layers by layer number
and then by wall, each on its frame parameters and on the total of those before it: one above a shed layer of its wall
is shed, otherwise an inactive one is neither admitted nor shed, otherwise it is admitted if its visible pixels still
fit, and shed if not (a layer over a shed one that is itself inactive is shed: log 36). R92: a wall sheds in a frame in
which some layer of it is shed, which sets its SHED flag; where it did not shed before it raises LOAD_SHED; and a shed
layer offers nothing to the picture. -/
def Obligations.AdmissionWithinLoadBudget : Prop :=
  (∀ (w : Nat) (x : Wall) (s : State), s.wall w = some x →
    let t := settleShedding w s
    let shed (l : Nat) : Prop := 1 ≤ l ∧ l ≤ 4 ∧ ∃ f, x.frame = some f ∧
      (at_ f.layers (l - 1) FrameLayer.none_).admission = .shed
    (∀ l, l ∈ x.shedLayers ↔ shed l) ∧
    t.wall w = some { x with
      shedding := !x.shedLayers.isEmpty, shedFlag := x.shedFlag || !x.shedLayers.isEmpty } ∧
    (∀ v, v ≠ w → t.wall v = s.wall v) ∧
    (x.shedding = true ∨ x.shedLayers = [] → t.lkd = s.lkd) ∧
    (∀ l, x.shedding = false → shed l → (∀ k, k < l → ¬shed k) →
      t.lkd = s.lkd.raise ⟨.loadShed, s.rtu.counter, [.u2 w, .u2 l, .u2 x.shedLayers.length, .u2 s.wse.total]⟩) ∧
    t = { s with wse := { s.wse with walls := t.wse.walls }, lkd := t.lkd }) ∧
  (∀ (w layer px py : Nat) (l : FrameLayer) (s : State), l.admission ≠ .admitted → s.offer w layer l px py = none) ∧
  ∀ s : State, s.areas ≤ 8388608 →
    let t := settleFrames s
    t.wse.total ≤ 16777216 ∧ t.areas = s.areas ∧
    t.wse.total = s.areas + (t.wse.walls.map (fun e =>
      match e.2.frame with
      | none => 0
      | some f => (f.layers.toList.map (fun l => if l.admission = .admitted then l.visible else 0)).sum)).sum ∧
    let admitted (l : Nat) (walls : Table Wall) : Nat := (walls.map (fun e => match e.2.frame with
      | none => 0
      | some f =>
        let k := at_ f.layers (l - 1) FrameLayer.none_
        if k.admission = .admitted then k.visible else 0)).sum
    ∀ (before later : Table Wall) (w : Nat) (x : Wall) (f : FrameParams) (l : Nat),
      t.wse.walls = before ++ (w, x) :: later → x.frame = some f → 1 ≤ l → l ≤ 4 →
      let k := at_ f.layers (l - 1) FrameLayer.none_
      let total := s.areas + ((List.range (l - 1)).map (fun i => admitted (i + 1) t.wse.walls)).sum + admitted l before
      k.admission =
        if 1 < l ∧ (at_ f.layers (l - 2) FrameLayer.none_).admission = .shed then .shed
        else if k.layer.source = none ∨ k.opacity = 0 then .inactive
        else if total + k.visible ≤ 16777216 then .admitted
        else .shed

/-- R87, R88, R90, R101: SET TILE places a tile, with unity correction or the correction it had; REMOVE TILE frees its
id; the chains follow, and the frame in progress goes on with the tile map that it began with. That a chain keeps its
counts where SET TILE leaves its tiles as they were is the model's choice (log 21). -/
def Obligations.TilesPlacedAndRemoved : Prop :=
  ∀ (tag : Byte) (rest : List QueuedRequest) (s : State), s.fsc.showLock = false →
    (∀ (q : SetTileReq) (x : Wall) (o : Orientation), s.takes (.setTile tag q) rest → q.tile ≤ 255 → q.wall ≤ 3 →
      q.chain ≤ 7 → q.position ≤ 31 → 16 ≤ q.rect.width → q.rect.width ≤ 256 → q.rect.width % 16 = 0 →
      16 ≤ q.rect.height → q.rect.height ≤ 256 → q.rect.height % 16 = 0 → Orientation.ofCode q.orientation = some o →
      s.wall q.wall = some x → q.rect.x + q.rect.width ≤ x.width → q.rect.y + q.rect.height ≤ x.height →
      (∀ e ∈ s.wse.tiles, e.1 ≠ q.tile → e.2.chain = q.chain → e.2.wall = q.wall ∧ e.2.position ≠ q.position) →
      let correction := match s.wse.tiles.find q.tile with
        | some t => t.correction
        | none => ⟨4096, 4096, 4096, 0, 1023⟩
      ∃ (t : State) (fields : List Field),
        exec (.setTile tag q) s = .next (t.repliedFrom s.lkd.ready.length tag 0x34 .ok fields rest) ∧
        t.wse.tiles = s.wse.tiles.insert q.tile ⟨q.wall, q.chain, q.position, q.rect, o, correction⟩ ∧
        s.chainsFollow t ∧ t = { s with
          wse := { s.wse with tiles := t.wse.tiles, chains := t.wse.chains }, lkd := t.lkd }) ∧
    (∀ (id : Nat) (x : Tile), s.takes (.removeTile tag id) rest → id ≤ 255 → s.wse.tiles.find id = some x →
      ∃ t : State, exec (.removeTile tag id) s =
          .next (t.repliedFrom s.lkd.ready.length tag 0x35 .ok [.u1 id, .u1 x.wall, .u1 x.chain] rest) ∧
        t.wse.tiles = s.wse.tiles.erase id ∧ s.chainsFollow t ∧ t = { s with
          wse := { s.wse with tiles := t.wse.tiles, chains := t.wse.chains }, lkd := t.lkd })

/-- R93, R101: a correction is written with each field clamped from above, an absent field as it was; a zone is
defined with no averages and measured from the next boundary on, or made undefined; that the reply then has NONE in
every field is the model's choice (log 34). -/
def Obligations.CorrectionsAndZonesWritten : Prop :=
  ∀ (tag : Byte) (rest : List QueuedRequest) (s : State), s.fsc.showLock = false →
    (∀ (q : SetCorrectionReq) (x : Tile), s.takes (.setCorrection tag q) rest → q.tile ≤ 255 →
      s.wse.tiles.find q.tile = some x →
      let top (limit old : Nat) (field : Option Nat) : Nat := match field with
        | none => old
        | some n => if limit < n then limit else n
      let c : Correction := ⟨top 8191 x.correction.gainR q.gainR, top 8191 x.correction.gainG q.gainG,
        top 8191 x.correction.gainB q.gainB, top 255 x.correction.offset q.offset, top 1023 x.correction.clip q.clip⟩
      exec (.setCorrection tag q) s = .next
        ((s.setWse { s.wse with tiles := s.wse.tiles.insert q.tile { x with correction := c } }).answered tag 0x36 .ok
          [.u1 q.tile, .u2 c.gainR, .u2 c.gainG, .u2 c.gainB, .u2 c.offset, .u2 c.clip] rest)) ∧
    (∀ (q : DefineZoneReq) (x : Wall) (w : Nat), s.takes (.defineZone tag q) rest → q.zone ≤ 7 → q.wall = some w →
      w ≤ 3 → s.wall w = some x → 0 < q.rect.width → 0 < q.rect.height → q.rect.x + q.rect.width ≤ x.width →
      q.rect.y + q.rect.height ≤ x.height →
      let z : Zone := ⟨w, q.rect, 0, 0, 0, 0, none, none, false, false⟩
      exec (.defineZone tag q) s = .next
        ((s.setWse { s.wse with zones := s.wse.zones.insert q.zone z }).answered tag 0x37 .ok
          [.u1 q.zone, .u1 w, .u2 q.rect.x, .u2 q.rect.y, .u2 q.rect.width, .u2 q.rect.height,
            .u4 (q.rect.width * q.rect.height)] rest)) ∧
    (∀ q : DefineZoneReq, s.takes (.defineZone tag q) rest → q.zone ≤ 7 → q.wall = none →
      exec (.defineZone tag q) s = .next
        ((s.setWse { s.wse with zones := s.wse.zones.erase q.zone }).answered tag 0x37 .ok
          [.u1 q.zone, .none1, .none2, .none2, .none2, .none2, .none4] rest))

/-- R90: a returned word is recorded; and at the boundary a chain that carried tiles for the whole frame is judged on
it: the third miss in a row in OK makes FAULT, the third echo in a row in FAULT makes OK, both with counts 0 and with
CHAIN_STATE, which names the wall of the chain and the number of its tiles; no other judgement raises a notice. -/
def Obligations.ChainsAreJudged : Prop :=
  ∀ (c word : Nat) (s : State), c < 8 →
    (exec (.chainEcho c word) s = .next (s.setWse
      { s.wse with chains := put s.wse.chains c { s.chain c with returned := (s.chain c).returned ++ [word] } })) ∧
    (let x := s.chain c
     let y := (judgeChain c s).chain c
     let echoed := x.sent ≠ none ∧ x.sent.map (fun w => [w]) = some x.returned
     (x.whole = false ∨ x.state = .idle → judgeChain c s = s) ∧
     (x.whole = true → x.state = .ok →
       (echoed → y.state = .ok ∧ y.misses = 0 ∧ y.echoes = x.echoes) ∧
       (¬echoed → x.misses < 2 → y.state = .ok ∧ y.misses = x.misses + 1 ∧ y.echoes = x.echoes) ∧
       (¬echoed → 2 ≤ x.misses → y.state = .fault ∧ y.misses = 0 ∧ y.echoes = 0)) ∧
     (x.whole = true → x.state = .fault →
       (¬echoed → y.state = .fault ∧ y.echoes = 0 ∧ y.misses = x.misses) ∧
       (echoed → x.echoes < 2 → y.state = .fault ∧ y.echoes = x.echoes + 1 ∧ y.misses = x.misses) ∧
       (echoed → 2 ≤ x.echoes → y.state = .ok ∧ y.misses = 0 ∧ y.echoes = 0)) ∧
     (let notice (old new : ChainState) : Lkd := s.lkd.raise ⟨.chainState, s.rtu.counter,
        [.u2 c, .u2 old.code, .u2 new.code,
          opt2 ((s.wse.tiles.find? (fun e => decide (e.2.chain = c))).map (fun e => e.2.wall)),
          .u2 (s.wse.tiles.countP (fun e => decide (e.2.chain = c)))]⟩
      (judgeChain c s).lkd =
        if x.whole = true ∧ x.state = .ok ∧ ¬echoed ∧ 2 ≤ x.misses then notice .ok .fault
        else if x.whole = true ∧ x.state = .fault ∧ echoed ∧ 2 ≤ x.echoes then notice .fault .ok
        else s.lkd) ∧
     judgeChain c s = { s with
       wse := { s.wse with chains := (judgeChain c s).wse.chains }, lkd := (judgeChain c s).lkd } ∧
     ∀ d, d < 8 → d ≠ c → (judgeChain c s).chain d = s.chain d)

/-! ## The pixel path -/

/-- R97: the accumulator after one layer. It lies between what it was and the layer's component, so that it stays within
0..1023; an opacity of 65535 gives the component, and an equal component leaves it. Opacity 0 is never met: such a layer
is not admitted, and a layer that is not admitted offers nothing. The composed component takes the layers in order from
1 to 4, from the background, passing over a layer that offers nothing, and is the background where none offers. -/
def Obligations.BlendRule : Prop :=
  (∀ acc sample a : Nat, a ≤ 65535 →
    (acc ≤ sample → blend acc sample a = acc + (sample - acc) * a / 65535) ∧
    (sample < acc → blend acc sample a = acc - (acc - sample) * a / 65535) ∧
    min acc sample ≤ blend acc sample a ∧ blend acc sample a ≤ max acc sample ∧
    (acc ≤ 1023 → sample ≤ 1023 → blend acc sample a ≤ 1023) ∧ blend acc sample 65535 = sample ∧
    blend acc acc a = acc) ∧
  (∀ (total : Nat) (lowerShed : Bool) (l : FrameLayer), l.opacity = 0 →
    (admitLayer total lowerShed l).2 ≠ .admitted) ∧
  (∀ (s : State) (w n x y : Nat) (l : FrameLayer), l.admission ≠ .admitted → s.offer w n l x y = none) ∧
  (∀ (s : State) (w x y : Nat) (background : Rgb) (l1 l2 l3 l4 : FrameLayer),
    let laid (n : Nat) (l : FrameLayer) (acc : Rgb) : Rgb := match s.offer w n l x y with
      | none => acc
      | some c => ⟨blend acc.r c.r l.opacity, blend acc.g c.g l.opacity, blend acc.b c.b l.opacity⟩
    let composed := s.composeFrom w x y 1 [l1, l2, l3, l4] background
    composed = laid 4 l4 (laid 3 l3 (laid 2 l2 (laid 1 l1 background))) ∧
    (s.offer w 1 l1 x y = none → s.offer w 2 l2 x y = none → s.offer w 3 l3 x y = none →
      s.offer w 4 l4 x y = none → composed = background) ∧
    ((∀ l ∈ [l1, l2, l3, l4], l.opacity ≤ 65535) → background.r ≤ 1023 → background.g ≤ 1023 → background.b ≤ 1023 →
      composed.r ≤ 1023 ∧ composed.g ≤ 1023 ∧ composed.b ≤ 1023))

/-- What a layer offers by R79 and R96: an admitted layer, within its placement, the pixel of its source that stands
there, from the region's image, from the buffer that the layer latches where the region is bound (nothing where it
latches none), or from buffer 0; the region as its record stood when the frame began (the model's choice: log 35), the
components of the pixel word with R the highest (the model's choice: log 7). The wall value by R98: the composed
component times the brightness over 65535, rounded down. R86, R99, R100, R102 to R104: what a tile is sent for one
pixel: in NORMAL and FREEZE gain, offset and clip on the wall value, in TEST offset and clip on the pattern value, in
BLANK 0; no value passes the tile's upper clip, and the pixel is marked clipped exactly when the clip lowered some
component of it. The pattern values: eight bars across the canvas with their lit components at 767 or 1023, a grey by
the tile's id, or the given colour. A tile is sent each canvas pixel of its rectangle once: as tile pixel k, and in a
TURNED tile as tile pixel w × h − 1 − k. -/
def Obligations.PixelPathToTiles : Prop :=
  (∀ (s : State) (w n x y id : Nat) (l : FrameLayer) (r : Region),
    l.admission = .admitted → l.layer.source = some id → l.region = some r →
    let inside := l.layer.px ≤ x ∧ (x : Int) < l.layer.px + l.layer.rect.width ∧ l.layer.py ≤ y ∧
      (y : Int) < l.layer.py + l.layer.rect.height
    let sourceX : Int := l.layer.rect.x + x - l.layer.px
    let sourceY : Int := l.layer.rect.y + y - l.layer.py
    let pixel (buffer : Nat) : Rgb := rgbOf (s.fsc.readPixel r buffer (sourceY.toNat * r.width + sourceX.toNat))
    (¬inside → s.offer w n l x y = none) ∧
    (inside → r.kind = .still → s.offer w n l x y = some (pixel 0)) ∧
    (inside → r.kind = .live → s.lip.bound ≠ some id → s.offer w n l x y = some (pixel 0)) ∧
    (inside → r.kind = .live → s.lip.bound = some id →
      s.offer w n l x y = (at_ s.lip.latch (w * 4 + n - 1) none).map (fun e => pixel e.buffer)) ∧
    ∀ b, (pixel b).r < 1024 ∧ (pixel b).g < 1024 ∧ (pixel b).b < 1024) ∧
  (∀ (s : State) (w x y : Nat) (background : Rgb) (f : FrameParams),
    let c := s.composeFrom w x y 1 f.layers.toList background
    let v := s.wallValue w background f x y
    v = ⟨c.r * f.brightness / 65535, c.g * f.brightness / 65535, c.b * f.brightness / 65535⟩ ∧
    (f.brightness ≤ 65535 → v.r ≤ c.r ∧ v.g ≤ c.g ∧ v.b ≤ c.b) ∧ (f.brightness = 65535 → v = c)) ∧
  (∀ (f : FrameParams) (width x id : Nat) (c : Correction) (v : Rgb),
     let out := tileOutput f width x id c v
     (f.mode = .normal ∨ f.mode = .freeze →
       out.1.value = min (v.r * c.gainR / 4096 + c.offset) c.clip ∧
       out.2.1.value = min (v.g * c.gainG / 4096 + c.offset) c.clip ∧
       out.2.2.value = min (v.b * c.gainB / 4096 + c.offset) c.clip ∧
       (sentClipped out = true ↔
         c.clip < v.r * c.gainR / 4096 + c.offset ∨ c.clip < v.g * c.gainG / 4096 + c.offset ∨
           c.clip < v.b * c.gainB / 4096 + c.offset)) ∧
     (f.mode = .test → out.1.value = min ((f.pattern.value width x id).r + c.offset) c.clip ∧
       out.2.1.value = min ((f.pattern.value width x id).g + c.offset) c.clip ∧
       out.2.2.value = min ((f.pattern.value width x id).b + c.offset) c.clip ∧
       (sentClipped out = true ↔
         c.clip < (f.pattern.value width x id).r + c.offset ∨ c.clip < (f.pattern.value width x id).g + c.offset ∨
           c.clip < (f.pattern.value width x id).b + c.offset)) ∧
     (f.mode = .blank → sentRgb out = ⟨0, 0, 0⟩ ∧ sentClipped out = false) ∧
     (sentRgb out).r ≤ c.clip ∧ (sentRgb out).g ≤ c.clip ∧ (sentRgb out).b ≤ c.clip) ∧
  (∀ (width x id : Nat) (colour : Rgb),
     (Pattern.flat colour).value width x id = colour ∧
     Pattern.tileId.value width x id = ⟨id % 32 * 33, id % 32 * 33, id % 32 * 33⟩ ∧
     ∀ i, i < 8 → i * width / 8 ≤ x → x < (i + 1) * width / 8 →
       let bar (lit : Nat) : Rgb := ⟨if i ∈ [0, 1, 4, 5] then lit else 0, if i ∈ [0, 1, 2, 3] then lit else 0,
         if i ∈ [0, 2, 4, 6] then lit else 0⟩
       Pattern.bars75.value width x id = bar 767 ∧ Pattern.bars100.value width x id = bar 1023) ∧
  (∀ (t : Tile) (k : Nat), k < t.rect.width * t.rect.height →
     (t.orientation = .normal →
       t.canvasPixel k = (t.rect.x + k % t.rect.width, t.rect.y + k / t.rect.width)) ∧
     ({ t with orientation := .turned } : Tile).canvasPixel k =
       ({ t with orientation := .normal } : Tile).canvasPixel (t.rect.width * t.rect.height - 1 - k) ∧
     rectCovers t.rect (t.canvasPixel k).1 (t.canvasPixel k).2 = true ∧
     (∀ j, j < t.rect.width * t.rect.height → t.canvasPixel j = t.canvasPixel k → j = k))

/-- R48, R67, R68, R96 to R98, R105: a granted scan fetch composes the next canvas pixels of its wall and takes them
into the zones measured on that wall: a zone's sums grow by the wall values of the pixels of the run that lie in its
rectangle, and its pixels taken by their number; a granted live capture writes a line or part of a line of the pixels
that wait, in the order received, with capture progress behind the last pixel written of the frame that started last,
and completes the frame if its last pixel is among them. Nothing else changes. What capture progress counts is the
model's choice (log 40). The waiting requesters as an operand (log 10), and a run of pixels of all four layers as one
scan fetch access (log 11), are the model's choices. -/
def Obligations.UpperAccessesGranted : Prop :=
  ∀ (asks : Asks) (s : State),
    (∀ w n x f, asks.scan = some (w, n) → s.wall w = some x → x.frame = some f → s.framePages f = true →
      let start := x.picture.length
      let values := (List.range (min n (x.width * x.height - start))).map (fun i =>
        s.wallValue w x.background f ((start + i) % x.width) ((start + i) / x.width))
      exec (.dramAccessGrant asks) s = .next (s.setWse { s.wse with
        walls := s.wse.walls.modify w (fun y => { y with picture := y.picture ++ values }),
        zones := s.wse.zones.mapAll (fun z =>
          if z.wall = w ∧ z.measuring = true then z.addRun x.width start values else z) })) ∧
    (∀ r, asks.scan = none → 0 < asks.live → s.lip.bound.bind s.region = some r → s.fsc.inStore r = true →
      let run := lineRun r.width asks.live s.lip.queue
      (run = s.lip.queue.take run.length ∧ run.length ≤ asks.live ∧ (s.lip.queue ≠ [] → run ≠ []) ∧
        ∀ (i : Nat) (p q : CapturePixel), run[i]? = some p → run[i + 1]? = some q →
          q.buffer = p.buffer ∧ q.offset = p.offset + 1 ∧ q.offset / r.width = p.offset / r.width) ∧
      ∃ t : State, exec (.dramAccessGrant asks) s = .next t ∧ t.lip.queue = s.lip.queue.drop run.length ∧
        (∀ a, (∀ p ∈ run, ∀ b, s.fsc.pixelAddr r p.buffer p.offset = some b → a < b ∨ b + 3 < a) →
          Memory.read t.fsc.mem a = Memory.read s.fsc.mem a) ∧
        (∀ p, run.getLast? = some p → (s.fsc.pixelAddr r p.buffer p.offset).isSome = true →
          t.fsc.readPixel r p.buffer p.offset = p.word) ∧
        (¬(s.lip.capture.phase = .received ∧ run.length = s.lip.queue.length) →
          t.lip = { s.lip with
            queue := t.lip.queue, earlier := s.lip.earlier - run.length, progress := t.lip.progress } ∧
          t.lkd = s.lkd) ∧
        (∀ p, run.getLast? = some p → s.lip.earlier < run.length →
          t.lip.progress = some (p.offset / r.width, p.offset % r.width + 1)) ∧
        (run.length ≤ s.lip.earlier → t.lip.progress = s.lip.progress) ∧
        (s.lip.capture.phase = .received → run.length = s.lip.queue.length →
          t.lip.complete = min 4294967295 (s.lip.complete + 1)) ∧
        t = { s with fsc := { s.fsc with mem := t.fsc.mem }, lip := t.lip, lkd := t.lkd }) ∧
    (asks.scan = none → asks.live = 0 → exec (.dramAccessGrant asks) s = .next s) ∧
    (∀ (width start : Nat) (values : List Rgb) (z : Zone),
      let inside : List Nat := (List.range values.length).filter (fun i =>
        let x := (start + i) % width
        let y := (start + i) / width
        decide (z.rect.x ≤ x ∧ x < z.rect.x + z.rect.width ∧ z.rect.y ≤ y ∧ y < z.rect.y + z.rect.height))
      let sum (component : Rgb → Nat) : Nat := (inside.map (fun i => component (values.getD i ⟨0, 0, 0⟩))).sum
      z.addRun width start values = { z with
        sumR := z.sumR + sum (·.r), sumG := z.sumG + sum (·.g), sumB := z.sumB + sum (·.b)
        taken := z.taken + inside.length })

/-- R25, R82, R89, R98 to R102: at a latch instant of a wall the frame's picture, composed to its end, goes down every
chain that carries the wall's tiles in this frame, each tile's data in chain order, with the frame's check word; a
clipped value sets CLIP of the wall. Other chains and other walls stay as they are. Each instant of a frame occurs once,
at its tick; one that the frame has passed is none. That what is left of the picture is composed at the instant (log
12), and that the command names its index and moves the tick (log 4, 31), are the model's choices. -/
def Obligations.LatchInstantSendsPicture : Prop :=
  ∀ (w k : Nat) (x : Wall) (f : FrameParams) (s : State),
    s.wall w = some x → x.frame = some f → k < x.refresh →
    let tick := (s.cph.phase * 64 + k * 65536 / x.refresh) % 65536
    (tick < s.rtu.tick ∨ k ∈ x.reached → exec (.latchInstant w k) s = .next s) ∧
    (s.rtu.tick ≤ tick → k ∉ x.reached → s.framePages f = true →
    ∃ (t : State) (y : Wall), exec (.latchInstant w k) s = .next t ∧
      (let left := x.width * x.height - x.picture.length
       y = { x with
         picture := x.picture ++ s.runValues w x f x.picture.length left, reached := k :: x.reached }) ∧
      (let clipped := s.wse.frameTiles.any (fun e => decide (e.2.wall = w) && (tileData y f e.1 e.2).any sentClipped)
       t.wall w = some { y with clipFlag := x.clipFlag || clipped }) ∧
      (∀ v, v ≠ w → t.wall v = s.wall v) ∧
      (∀ c, c < 8 → s.carries w c = true → t.chain c = { s.chain c with
        sent := some ((s.chain c).sent.getD (checkWord c s.rtu.counter)),
        out := (chainTiles c s.wse.frameTiles).map (fun e => (e.1, (tileData y f e.1 e.2).map sentRgb)) }) ∧
      (∀ c, c < 8 → s.carries w c = false → t.chain c = s.chain c) ∧
      t.wse.tiles = s.wse.tiles ∧ t.wse.frameTiles = s.wse.frameTiles ∧
      t = { s with rtu := { s.rtu with tick := tick }, wse := t.wse })

/-- R106, R142, R143: the zone-complete event: averages and luma, the last frame, and the tracked level of every channel
that tracks the zone, which moves toward its target by the smoothing and never past it. A channel whose tracked level
changes has its mix and output computed again, and where the output changes every fixture fed from it is queued or
dirty; any other channel stays as it is. A zone not complete raises none. -/
def Obligations.ZoneCompletes : Prop :=
  ∀ (id : Nat) (z : Zone) (s : State), s.wse.zones.find id = some z →
    (z.measuring = true → z.raised = false → z.taken = z.rect.width * z.rect.height →
      let n := z.rect.width * z.rect.height
      let avg : Averages := ⟨z.sumR / n, z.sumG / n, z.sumB / n,
        (77 * (z.sumR / n) + 150 * (z.sumG / n) + 29 * (z.sumB / n)) / 256⟩
      ∃ t : State, exec (.zoneComplete id) s = .next t ∧
        (let done : Zone := { z with last := some avg, lastFrame := some s.rtu.counter, raised := true }
         t.wse = { s.wse with zones := s.wse.zones.insert id done }) ∧
        (∀ c, c < 768 →
          let ch := s.channel c
          let target := min 65535 (avg.component ch.component * 64 * ch.gain / 256)
          (t.channel c).tracked =
            if ch.mode ≠ .fade ∧ ch.zone = id then
              if ch.tracked ≤ target then ch.tracked + (target - ch.tracked) * ch.smoothing / 256
              else ch.tracked - (ch.tracked - target) * ch.smoothing / 256
            else ch.tracked) ∧
        (∀ c, c < 768 →
          let ch := s.channel c
          let tracked := (t.channel c).tracked
          let mix := if ch.mode = .track then tracked else min 65535 (s.level c + tracked)
          t.channel c =
            if tracked = ch.tracked then ch
            else { ch with
              tracked := tracked, mix := mix, output := mix * s.level 788 / 65535
              sat := ch.sat || decide (ch.mode = .sum ∧ 65535 < s.level c + tracked) }) ∧
        (∀ (i : Nat) (f : Fixture), s.fbc.fixtures.find i = some f →
          (∃ c, c < 768 ∧ f.first ≤ c ∧ c < f.first + f.count ∧ (t.channel c).output ≠ (s.channel c).output) →
          (t.port f.port).isQueued i = true ∨ (t.port f.port).isDirty i = true) ∧
        t.fbc.fixtures = s.fbc.fixtures ∧ t.lvp.targets = s.lvp.targets ∧ t.lvp.fades = s.lvp.fades ∧
        t = { s with wse := t.wse, lvp := t.lvp, fbc := t.fbc }) ∧
    (z.measuring = false ∨ z.raised = true ∨ z.taken ≠ z.rect.width * z.rect.height →
      exec (.zoneComplete id) s = .next s)

/-! ## The Cue Engine -/

/-- R40, R111 to R113: STORE CUE puts the cue that its body spells, with its trigger and every field of its actions,
in the list, or in the place of the cue of its number, and DELETE CUE takes one out; the reference counts of the
regions follow the actions. A deleted standby moves to the next cue, and a pending request for the deleted cue is
removed. That DELETE CUE of number 0 is refused with RANGE and not with NO_SUCH follows the order in which R113 names
them (the model's choice: log 38). -/
def Obligations.CuesStoredAndDeleted : Prop :=
  ∀ (tag : Byte) (rest : List QueuedRequest) (s : State),
    let named (id : Nat) (l : List TimedAction) : Nat := l.countP (fun a => decide (a.action.region = some id))
    (∀ (q : StoreCueReq) (c : Cue), s.takes (.storeCue tag q) rest → cueOf q = some c →
      (∀ a ∈ c.actions, ∀ w, a.action.wall = some w → s.wall w ≠ none) →
      (∀ a ∈ c.actions, ∀ id, a.action.region = some id → s.region id ≠ none) →
      (∀ a ∈ c.actions, a.action.badRect s = false) →
      let old := storedActions q.cue s.cue.cues
      (s.cue.cues.find q.cue = none → s.cue.cues.length < 200) →
      poolUsed s.cue.cues - old.length + c.actions.length ≤ 1024 →
      1 ≤ c.actions.length ∧ c.actions.length ≤ 32 ∧
      c.actions.map (·.delay) = q.actions.map (fun a => min 8191 a.delay) ∧
      c.trigger = (if q.trigger = 0 then .go else if q.trigger = 1 then .follow (min 8191 q.arg) else .tally q.arg) ∧
      (∀ (i : Nat) (a : RawTimed), q.actions[i]? = some a → ∃ b, (c.actions[i]?).map (·.action) = some b ∧
        match a.action with
        | .layerSource w l source rect px py => b = .layerSource w l source rect px py
        | .layerFade w l level d k => b = .layerFade w l level (min 8191 d) k
        | .wallFade w level d k => b = .wallFade w level (min 8191 d) k
        | .levelFade first count level d k => b = .levelFade first count level (min 8191 d) k
        | .masterFade level d k => b = .masterFade level (min 8191 d) k
        | .wallMode w m p colour => ∃ mode pattern, WallMode.ofCode m = some mode ∧
            Pattern.ofCode p colour = some pattern ∧ b = .wallMode w mode pattern
        | .unknown _ => False) ∧
      ∃ (t : State) (fields : List Field), exec (.storeCue tag q) s = .next (t.answered tag 0x40 .ok fields rest) ∧
        t.cue = { s.cue with cues := s.cue.cues.insert q.cue c } ∧
        (∀ id, t.region id =
          (s.region id).map (fun r => { r with ref := r.ref - named id old + named id c.actions })) ∧
        t = { s with fsc := { s.fsc with regions := t.fsc.regions }, cue := t.cue }) ∧
    (∀ q : StoreCueReq, s.takes (.storeCue tag q) rest → cueOf q = none →
      exec (.storeCue tag q) s = .next (s.answered tag 0x40 .range [] rest)) ∧
    (∀ n : Nat, s.takes (.deleteCue tag n) rest →
      (n = 0 → exec (.deleteCue tag n) s = .next (s.answered tag 0x41 .range [] rest)) ∧
      (n ≠ 0 → s.cue.cues.find n = none → exec (.deleteCue tag n) s = .next (s.answered tag 0x41 .noSuch [] rest)) ∧
      (∀ c, n ≠ 0 → s.cue.cues.find n = some c →
        let standby := if s.cue.standby = some n then (s.cue.cues.firstFrom (n + 1)).map (·.1) else s.cue.standby
        let removed := decide (s.cue.pending.map (·.1) = some n)
        ∃ t : State, exec (.deleteCue tag n) s =
            .next (t.answered tag 0x41 .ok [.u2 n, opt2 standby, .u1 (boolCode removed)] rest) ∧
          t.cue = { s.cue with
            cues := s.cue.cues.erase n, standby := standby,
            pending := if removed = true then none else s.cue.pending } ∧
          (∀ id, t.region id = (s.region id).map (fun r => { r with ref := r.ref - named id c.actions })) ∧
          t = { s with fsc := { s.fsc with regions := t.fsc.regions }, cue := t.cue }))

/-- R119 to R121, R123 to R125: how a cue fires. A frame boundary fires the cue of a pending request; the standby moves
on behind it. A firing whose actions all wait makes the active record, counts the entries that it puts in the wait list
with their regions, and raises CUE_FIRED; an action that finds the wait list full is executed at once. An action on a
wall that is not defined is skipped, and counts as executed at once all the same (the model's reading: log 22). A LAYER
SOURCE moves the air counts (R39). A record of the same cue, or the earliest of 16, is superseded: its fades become
MANUAL and its wait entries nobody's. A record whose count is 0 completes, and if its cue is the most recent the follow
timer starts for a standby that follows. A follow timer that expires fires a standby that follows. With nothing else to
fire, a standby that waits for a camera fires with its rise. -/
def Obligations.CueFires : Prop :=
  (∀ (lines : BitVec 8) (n : Nat) (src : AskSource) (c : Cue) (s : State), s.rtu.gen ≠ .locked →
     s.cue.pending = some (n, src) → s.cue.cues.find n = some c →
     ∃ t : State, exec (.frameBoundary lines) s = .next t ∧ t.cue.pending = none ∧ t.cue.recent = some n ∧
       t.cue.standby = (s.cue.cues.firstFrom (n + 1)).map (·.1) ∧ t.cue.cues = s.cue.cues ∧ t.cue.step = none ∧
       t.cue.hold = s.cue.hold ∧ s.boundaryKeeps t) ∧
  (∀ (n : Nat) (src : FireSource) (c : Cue) (s : State), s.cue.cues.find n = some c → c.actions ≠ [] →
     (∀ a ∈ c.actions, 0 < a.delay) → s.cue.waits.length + c.actions.length ≤ 128 → s.cue.active.length < 16 →
     (∀ a ∈ s.cue.active, a.cue ≠ n ∧ 0 < a.outstanding) →
     let t := fireCue n src s
     let next := (s.cue.cues.firstFrom (n + 1)).map (·.1)
     let count := c.actions.length
     t.cue = { s.cue with
       follow := none, recent := some n, standby := next
       active := s.cue.active ++ [⟨n, s.rtu.counter, count⟩]
       waits := s.cue.waits ++ mapFrom (fun i a => ⟨a.action, i, some n, a.delay⟩) 1 c.actions } ∧
     (∀ id, t.region id = (s.region id).map (fun r => { r with
       ref := r.ref + c.actions.countP (fun a => decide (a.action.region = some id)) })) ∧
     t.lkd = s.lkd.raise ⟨.cueFired, s.rtu.counter,
       [.u2 n, .u2 src.code, opt2 src.camera, .u2 0, .u2 0, .u2 count, .u2 count, opt2 next]⟩ ∧
     t = { s with fsc := { s.fsc with regions := t.fsc.regions }, cue := t.cue, lkd := t.lkd }) ∧
  (∀ (n position : Nat) (a : TimedAction) (f : Firing), a.delay = 0 ∨ 128 ≤ f.state.cue.waits.length →
     let g := fireAction n position a f
     let u := judge (some n) (runAction (some n) position false a.action f.state)
     g.state = u.setCue { u.cue with waitOverflow := u.cue.waitOverflow || decide (0 < a.delay) } ∧
     g.atOnce = f.atOnce + 1 ∧ g.overflow = f.overflow + (if 0 < a.delay then 1 else 0) ∧ g.entries = f.entries) ∧
  (∀ (owner : Option Nat) (position w : Nat) (fromWait : Bool) (a : Action) (s : State), a.wall = some w →
     (s.wall w = none → runAction owner position fromWait a s = s.setLkd (s.lkd.raise ⟨.actionSkipped, s.rtu.counter,
       [opt2 owner, .u2 position, .u2 a.code, .u2 w, .u2 (boolCode fromWait)]⟩)) ∧
     (∀ x, s.wall w = some x →
       let t := runAction owner position fromWait a s
       match a with
       | .layerSource _ l source rect px py =>
         let old := (x.layer l).source
         t.wall w = some { x with layers := put x.layers (l - 1) ⟨source, rect, px, py⟩ } ∧
         ∀ id, t.region id = (s.region id).map (fun r => { r with
           air := if old = source then r.air
             else if old = some id then r.air - 1
             else if source = some id then r.air + 1 else r.air })
       | .layerFade _ l level d k => t = startFade (768 + w * 4 + l - 1) level d k (ownerOf owner) s
       | .wallFade _ level d k => t = startFade (784 + w) level d k (ownerOf owner) s
       | .wallMode _ m p => t.wall w = some { x with pending := some (m, p) }
       | _ => True)) ∧
  (∀ (owner : Option Nat) (position : Nat) (fromWait : Bool) (level d k : Nat) (s : State),
     runAction owner position fromWait (.masterFade level d k) s = startFade 788 level d k (ownerOf owner) s ∧
     ∀ first count, runAction owner position fromWait (.levelFade first count level d k) s =
       (List.range count).foldl (fun t i => startFade (first + i) level d k (ownerOf owner) t) s) ∧
  (∀ (n : Nat) (s : State),
     let gone (a : Active) : State := { s with
       cue := { s.cue with
         active := s.cue.active.filter (fun x => decide (x.cue ≠ a.cue))
         waits := s.cue.waits.map (fun e => if e.owner = some a.cue then { e with owner := none } else e) }
       lvp := { s.lvp with
         fades := s.lvp.fades.mapAll (fun f => if f.owner = .cue a.cue then { f with owner := .manual } else f) }
       lkd := s.lkd.raise ⟨.cueComplete, s.rtu.counter, [.u2 a.cue, .u2 1, .u4 a.fireFrame.toNat]⟩ }
     (∀ before a later, s.cue.active = before ++ a :: later → a.cue = n → (∀ b ∈ before, b.cue ≠ n) →
       makeRoom n s = gone a) ∧
     ((∀ b ∈ s.cue.active, b.cue ≠ n) →
       (s.cue.active.length < 16 → makeRoom n s = s) ∧
       (∀ a later, 16 ≤ s.cue.active.length → s.cue.active = a :: later → makeRoom n s = gone a))) ∧
  (∀ (before later : List Active) (a : Active) (s : State), s.cue.active = before ++ a :: later → a.outstanding = 0 →
     (∀ b ∈ before ++ later, 0 < b.outstanding ∧ b.cue ≠ a.cue) →
     judge none s = { s with
       cue := { s.cue with
         active := before ++ later
         follow :=
           if s.cue.recent = some a.cue then
             match s.cue.standby.bind s.cue.cues.find with
             | some ⟨.follow d, _⟩ => some ⟨d, d⟩
             | _ => s.cue.follow
           else s.cue.follow }
       lkd := s.lkd.raise ⟨.cueComplete, s.rtu.counter, [.u2 a.cue, .u2 0, .u4 a.fireFrame.toNat]⟩ }) ∧
  (∀ (n d a : Nat) (rises : List Nat) (c : Cue) (s : State), s.cue.pending = none → 0 < a →
     s.cue.follow.map (·.remaining) = some 0 → s.cue.standby = some n → s.cue.cues.find n = some c →
     c.trigger = .follow d →
     chooseFire true a rises s = fireCue n .follow (s.setCue { s.cue with follow := none })) ∧
  (∀ (n camera a : Nat) (ran : Bool) (rises : List Nat) (c : Cue) (s : State), s.cue.pending = none →
     s.cue.follow.map (·.remaining) ≠ some 0 → s.cue.standby = some n → s.cue.cues.find n = some c →
     c.trigger = .tally camera →
     chooseFire ran a rises s = if camera ∈ rises then fireCue n (.tally camera) s else s)

/-- R114 to R116, R126, R127: STANDBY, GO, GO CUE, CANCEL GO, HOLD, RELEASE and STEP: what each writes, and what each
is refused with; nothing else changes. Where several of the conditions hold, the one that the rule names first gives the
status (the model's choice: log 38). -/
def Obligations.CueControlRequests : Prop :=
  ∀ (tag : Byte) (n : Nat) (rest : List QueuedRequest) (s : State),
    let change (c : CueEngine) (kind : Byte) (fields : List Field) : State :=
      (s.setCue c).answered tag kind .ok fields rest
    let refused (kind : Byte) (st : Status) : State := s.answered tag kind st [] rest
    (s.takes (.standby tag n) rest → exec (.standby tag n) s = .next
      (if n = 0 then refused 0x42 .range
       else if s.cue.cues.find n = none then refused 0x42 .noSuch
       else change { s.cue with standby := some n } 0x42 [.u2 n])) ∧
    (s.takes (.go tag) rest →
      (s.cue.standby = none → exec (.go tag) s = .next (refused 0x43 .noSuch)) ∧
      (∀ k, s.cue.standby = some k → exec (.go tag) s = .next
        (if s.cue.pending = none then change { s.cue with pending := some (k, .go) } 0x43 [.u2 k]
         else refused 0x43 .busy))) ∧
    (s.takes (.goCue tag n) rest → exec (.goCue tag n) s = .next
      (if n = 0 then refused 0x44 .range
       else if s.cue.cues.find n = none then refused 0x44 .noSuch
       else if s.cue.pending ≠ none then refused 0x44 .busy
       else change { s.cue with pending := some (n, .goCue) } 0x44 [])) ∧
    (s.takes (.cancelGo tag) rest →
      (s.cue.pending = none → exec (.cancelGo tag) s = .next (refused 0x45 .notPending)) ∧
      (∀ k src, s.cue.pending = some (k, src) →
        exec (.cancelGo tag) s = .next (change { s.cue with pending := none } 0x45 [.u2 k]))) ∧
    (s.takes (.hold tag) rest → exec (.hold tag) s = .next
      (if s.cue.hold = true then refused 0x46 .wrongState else change { s.cue with hold := true } 0x46 [.u1 1])) ∧
    (s.takes (.release tag) rest → exec (.release tag) s = .next
      (if s.cue.hold = false then refused 0x47 .wrongState
       else change { s.cue with hold := false, step := none } 0x47 [.u1 0, opt2 s.cue.step])) ∧
    (s.takes (.stepFrames tag n) rest → exec (.stepFrames tag n) s = .next
      (if n = 0 then refused 0x48 .range
       else if s.cue.hold = false then refused 0x48 .wrongState
       else if s.cue.step ≠ none then refused 0x48 .busy
       else change { s.cue with step := some (min 250 n) } 0x48 [.u2 (min 250 n)]))

/-! ## The Level Processor -/

/-- R137, R138, R141, R144: SET CURVE writes the points of one curve, FADE holds a pending manual fade in its place,
and SET CHANNEL configures a run of channels, each with its tracked level at 0 and its mix and output computed; no
level, no running fade and nothing else changes but the dirty marks that changed outputs make. -/
def Obligations.LevelRequests : Prop :=
  ∀ (tag : Byte) (rest : List QueuedRequest) (s : State),
    (∀ (curve : Nat) (points : List Nat), s.takes (.setCurve tag curve points) rest → s.fsc.showLock = false →
      1 ≤ curve → curve ≤ 3 → points.length = 15 →
      let all := 0 :: points ++ [65535]
      (∀ i, i < 16 → all.getD i 0 ≤ all.getD (i + 1) 0) →
      ∃ v : Vector Nat 17, v.toList = all ∧ exec (.setCurve tag curve points) s = .next
        ((s.setLvp { s.lvp with curves := put s.lvp.curves curve v }).answered tag 0x50 .ok (all.map Field.u2) rest)) ∧
    (∀ (points : List Nat), s.takes (.setCurve tag 0 points) rest → s.fsc.showLock = false →
      exec (.setCurve tag 0 points) s = .next (s.answered tag 0x50 .wrongState [] rest)) ∧
    (∀ q : FadeReq, s.takes (.fade tag q) rest → q.target ≤ 788 → q.level ≤ 65535 → q.curve ≤ 3 →
      (∀ w, w ≤ 3 → q.target ∈ wallTargets w → s.wall w ≠ none) →
      let m : ManualFade := ⟨q.target, q.level, min 8191 q.duration, q.curve⟩
      let done (manual : List ManualFade) (replaced : Nat) : Result := .next
        ((s.setLvp { s.lvp with manual := manual }).answered tag 0x51 .ok
          [.u2 q.target, .u2 q.level, .u2 (min 8191 q.duration), .u1 replaced] rest)
      ((∀ x ∈ s.lvp.manual, x.target ≠ q.target) →
        exec (.fade tag q) s = if s.lvp.manual.length < 32 then done (s.lvp.manual ++ [m]) 0
          else .next (s.answered tag 0x51 .full [] rest)) ∧
      (∀ before x later, s.lvp.manual = before ++ x :: later → x.target = q.target →
        (∀ y ∈ before, y.target ≠ q.target) → exec (.fade tag q) s = done (before ++ m :: later) 1)) ∧
    (∀ (q : SetChannelReq) (mode : ChannelMode) (component : Component), s.takes (.setChannel tag q) rest →
      s.fsc.showLock = false → 1 ≤ q.count → q.count ≤ 64 → q.first + q.count ≤ 768 → q.zone ≤ 7 → q.gain ≤ 1023 →
      1 ≤ q.smoothing → q.smoothing ≤ 256 → ChannelMode.ofCode q.mode = some mode →
      Component.ofCode q.component = some component →
      ∃ t : State, exec (.setChannel tag q) s = .next (t.answered tag 0x52 .ok
          [.u2 q.first, .u1 q.count, .u1 q.mode, .u1 q.zone, .u1 q.component, .u2 q.gain, .u2 q.smoothing] rest) ∧
        (∀ c, c < 768 → t.channel c =
          if q.first ≤ c ∧ c < q.first + q.count then
            let mix := match mode with
              | .fade => s.level c
              | .track => 0
              | .sum => min 65535 (s.level c)
            ⟨mode, q.zone, component, q.gain, q.smoothing, 0, mix, mix * s.level 788 / 65535,
              (s.channel c).sat || decide (mode = .sum ∧ 65535 < s.level c)⟩
          else s.channel c) ∧
        t = { s with lvp := { s.lvp with channels := t.lvp.channels }, fbc := t.fbc } ∧
        t.fbc.fixtures = s.fbc.fixtures)

/-- R133 to R135, R139: fades. A fade started on a target takes over the one that runs there, whose owner's count falls;
with duration 0, or with every slot taken, the level becomes the end level at once, and FADE_OVERFLOW is set in the
second case; otherwise it is placed at the present level, and its owner's count rises. The pending manual fades start in
their order. The arithmetic: the level lies between start and end, is the start at n = 0, moves only toward the end
as n rises, and an advance that reaches the duration leaves exactly the end level. -/
def Obligations.FadeArithmetic : Prop :=
  ∀ (curve : Vector Nat 17) (f : Fade),
    at_ curve 0 0 = 0 → at_ curve 16 0 = 65535 → (∀ i, i < 16 → at_ curve i 0 ≤ at_ curve (i + 1) 0) →
    (∀ n, n < f.duration →
      let q := 65536 * n / f.duration
      let k := q / 4096
      let r := q - 4096 * k
      let w := at_ curve k 0 + (at_ curve (k + 1) 0 - at_ curve k 0) * r / 4096
      let level := fadeLevel curve f n
      q ≤ 65535 ∧ k ≤ 15 ∧ r ≤ 4095 ∧ at_ curve k 0 ≤ w ∧ w ≤ at_ curve (k + 1) 0 ∧ w ≤ 65535 ∧
      (f.start ≤ f.stop → level = f.start + (f.stop - f.start) * w / 65535 ∧ f.start ≤ level ∧ level ≤ f.stop) ∧
      (f.stop < f.start → level = f.start - (f.start - f.stop) * w / 65535 ∧ f.stop ≤ level ∧ level ≤ f.start)) ∧
    (0 < f.duration → fadeLevel curve f 0 = f.start) ∧
    (∀ m n, m ≤ n → n < f.duration →
      (f.start ≤ f.stop → fadeLevel curve f m ≤ fadeLevel curve f n) ∧
      (f.stop < f.start → fadeLevel curve f n ≤ fadeLevel curve f m)) ∧
    (∀ (s : State) (target a : Nat), target ≤ 788 → s.lvp.fades.find target = some f → f.duration ≤ f.elapsed + a →
      (advanceFade a target s).level target = f.stop ∧ (advanceFade a target s).lvp.fades.find target = none) ∧
    (∀ (s : State) (target stop duration shape : Nat) (owner : Owner), target ≤ 788 →
      let t := startFade target stop duration shape owner s
      let old : Option Owner := (s.lvp.fades.find target).map (·.owner)
      let placed := 0 < duration ∧ (s.lvp.fades.erase target).length < 256
      (placed → t.level target = s.level target ∧
        t.lvp.fades.find target = some ⟨s.level target, stop, duration, 0, shape, owner⟩) ∧
      (¬placed → t.level target = stop ∧ t.lvp.fades.find target = none) ∧
      t.lvp.fadeOverflow = (s.lvp.fadeOverflow || decide (0 < duration ∧ ¬placed)) ∧
      (∀ u, u ≠ target → t.level u = s.level u ∧ t.lvp.fades.find u = s.lvp.fades.find u) ∧
      t.cue = { s.cue with active := s.cue.active.map (fun a => { a with
        outstanding := a.outstanding - (if old = some (.cue a.cue) then 1 else 0) +
          (if placed ∧ owner = .cue a.cue then 1 else 0) }) } ∧
      t.lvp.manual = s.lvp.manual ∧ t = { s with cue := t.cue, lvp := t.lvp, fbc := t.fbc }) ∧
    (∀ s : State, s.lvp.manual = [] → startManual s = s) ∧
    (∀ (m : ManualFade) (later : List ManualFade) (s : State), s.lvp.manual = m :: later →
      let one := judge none (startFade m.target m.level m.duration m.curve .manual
        (s.setLvp { s.lvp with manual := [] }))
      startManual s = startManual (one.setLvp { one.lvp with manual := later }) ∧ (startManual s).lvp.manual = [])

/-! ## The Fixture Bus Controller -/

/-- R147, R149, R156, R158, R160: SET BUS, SET FILTER, DEFINE FIXTURE and DELETE FIXTURE carried out; the other port
keeps its state, and no other block changes. SET BUS raises PORT_STATE where it changes the port state. -/
def Obligations.BusSettings : Prop :=
  ∀ (tag : Byte) (rest : List QueuedRequest) (s : State), s.fsc.showLock = false →
    (∀ (q : SetBusReq) (p : Port) (e : Bool) (rate : Option Nat), s.takes (.setBus tag q) rest →
      portOfCode q.port = some p → boolOfCode q.enable = some e → q.rate.map rateOfCode = rate.map some →
      let b := s.port p
      let head (t : State) : List Field := [.u1 (boolCode e), .u1 (rateCode (t.port p).rate), .u1 (t.port p).state.code]
      (b.enabled = true → e = true → (∀ r, rate = some r → r = b.rate) →
        exec (.setBus tag q) s = .next (s.answered tag 0x60 .ok (head s) rest)) ∧
      (b.enabled = true → e = true → (∃ r, rate = some r ∧ r ≠ b.rate) →
        exec (.setBus tag q) s = .next (s.answered tag 0x60 .wrongState [] rest)) ∧
      (b.enabled = false → e = false →
        exec (.setBus tag q) s = .next
          (let t := setPort p { b with rate := rate.getD b.rate } s
           t.answered tag 0x60 .ok (head t) rest)) ∧
      (b.enabled ≠ e →
        ∃ t : State, exec (.setBus tag q) s = .next (t.repliedFrom s.lkd.ready.length tag 0x60 .ok (head t) rest) ∧
          (t.port p).enabled = e ∧ (t.port p).rate = rate.getD b.rate ∧
          (t.port p).state = (if e = true then .joining else .off) ∧ (t.port p).txe = 0 ∧ (t.port p).rxe = 0 ∧
          (t.port p).filters = b.filters ∧
          (e = false → (t.port p).queue = [] ∧ (t.port p).quiet = 0 ∧ (t.port p).drive = .released ∧
            ∀ id, id ∈ (t.port p).dirty ↔ id ∈ b.dirty ∨ ∃ x ∈ b.queue, x.fixture = id ∧ x.orphan = false) ∧
          (∀ o, o ≠ p → t.port o = s.port o) ∧ t.fbc.fixtures = s.fbc.fixtures ∧
          t.lkd = (if (t.port p).state = b.state then s.lkd
            else s.lkd.raise ⟨.portState, s.rtu.counter,
              [.u2 (portCode p), .u2 b.state.code, .u2 (t.port p).state.code,
                .u2 (if e = true then PortCause.enabled else PortCause.disabled).code, .u2 0, .u2 0]⟩) ∧
          t = { s with fbc := t.fbc, lkd := t.lkd })) ∧
    (∀ (q : SetFilterReq) (p : Port) (e : Bool), s.takes (.setFilter tag q) rest → portOfCode q.port = some p →
      boolOfCode q.enabled = some e →
      exec (.setFilter tag q) s = .next
        (if 7 < q.filter ∨ 1023 < q.value ∨ 1023 < q.mask then s.answered tag 0x61 .range [] rest
         else (setPort p { s.port p with filters := put (s.port p).filters q.filter ⟨q.value, q.mask, e⟩ } s).answered
          tag 0x61 .ok [.u2 q.value, .u2 q.mask, .u1 (boolCode e)] rest)) ∧
    (∀ (q : DefineFixtureReq) (p : Port), s.takes (.defineFixture tag q) rest → portOfCode q.port = some p →
      q.id ≤ 191 → q.address ≤ 511 → 1 ≤ q.count → q.count ≤ 16 → q.first + q.count ≤ 768 →
      (∀ k, q.keepAlive = some k → 1 ≤ k ∧ k ≤ 255) → (∀ k, q.silence = some k → k ≤ 65535) →
      (∀ e ∈ s.fbc.fixtures, e.1 ≠ q.id → ¬(e.2.port = p ∧ e.2.address = q.address)) →
      let keep := match q.keepAlive with
        | none => 50
        | some k => k
      let limit := match q.silence with
        | none => 150
        | some k => k
      ∃ (t : State) (fields : List Field), exec (.defineFixture tag q) s = .next (t.answered tag 0x62 .ok fields rest) ∧
        t.fbc.fixtures.find q.id =
          some ⟨p, q.address, q.first, q.count, keep, limit, .unseen, none, none, keep, 0, false⟩ ∧
        (∀ id, id ≠ q.id → t.fbc.fixtures.find id = s.fbc.fixtures.find id) ∧
        ((t.port p).isQueued q.id = true ∨ (t.port p).isDirty q.id = true) ∧ t = { s with fbc := t.fbc }) ∧
    (∀ (id : Nat) (f : Fixture), s.takes (.deleteFixture tag id) rest → id ≤ 191 → s.fbc.fixtures.find id = some f →
      ∃ t : State, exec (.deleteFixture tag id) s =
          .next (t.answered tag 0x63 .ok [.u1 id, .u1 (portCode f.port), .u2 f.address] rest) ∧
        t.fbc.fixtures = s.fbc.fixtures.erase id ∧ (t.port f.port).sending.map (·.snapshot) =
          (s.port f.port).sending.map (·.snapshot) ∧
        ((s.port f.port).dirty.Nodup → (t.port f.port).isQueued id = false ∧ (t.port f.port).isDirty id = false) ∧
        (∀ o, o ≠ f.port → t.port o = s.port o) ∧ t = { s with fbc := t.fbc })

/-- R148, R149, R155: how a port comes onto the line: a quiet period ends JOINING; the quiet count of a DETACHED port
goes up to 64, and there it recovers, with every fixture of the port queued or dirty; each with PORT_STATE. In any other
state none of these is anything to it. -/
def Obligations.PortsJoinAndRecover : Prop :=
  ∀ (p : Port) (s : State),
    let b := s.port p
    let toNormal (cause : PortCause) : Lkd := s.lkd.raise ⟨.portState, s.rtu.counter,
      [.u2 (portCode p), .u2 b.state.code, .u2 PortState.normal.code, .u2 cause.code, .u2 0, .u2 0]⟩
    (b.state = .joining → ∃ t : State, exec (.portJoined p) s = .next t ∧
      t.port p = { b with state := .normal, txe := 0, rxe := 0 } ∧ (∀ o, o ≠ p → t.port o = s.port o) ∧
      t.fbc.fixtures = s.fbc.fixtures ∧ t = { s with fbc := t.fbc, lkd := toNormal .joined }) ∧
    (b.state ≠ .joining → exec (.portJoined p) s = .next s) ∧
    (exec (.quietPeriod p) s = .next
      (if b.state = .detached then setPort p { b with quiet := min 64 (b.quiet + 1) } s else s)) ∧
    (b.state = .detached → 64 ≤ b.quiet → ∃ t : State, exec (.portRecovered p) s = .next t ∧
      (t.port p).state = .normal ∧ (t.port p).txe = 0 ∧ (t.port p).rxe = 0 ∧ (t.port p).filters = b.filters ∧
      (∀ id f, s.fbc.fixtures.find id = some f → f.port = p →
        (t.port p).isQueued id = true ∨ (t.port p).isDirty id = true) ∧
      (∀ o, o ≠ p → t.port o = s.port o) ∧ t.fbc.fixtures = s.fbc.fixtures ∧
      t = { s with fbc := t.fbc, lkd := toNormal .recovered }) ∧
    (b.state ≠ .detached ∨ b.quiet < 64 → exec (.portRecovered p) s = .next s)

/-- R151 to R154, R156, R157, R162: a send from its start to its three ends, a valid reception, and errors. A success
records what was sent and restarts the countdown; a reception is acknowledged; an error adds 8 to TXE or 1 to RXE, and
the port state follows the counts, with PORT_STATE where it changes; of the frames that pass the filters, a status frame
sets its fixture's state, with FIXTURE_STATE where it changes (R159), or, of a wrong length or with a condition above 2,
is counted as ignored; one from an unknown address raises UNKNOWN_SOURCE the first time; a level frame for a fixture's
address sets its clash mark, with ADDRESS_CLASH where it was clear; any other level frame changes nothing (R157). What
follows the port's error mark before the 9 bits of its delimiter is neither received nor counted; a frame that begins
there is the last bus frame on the line all the same, and not the port's own (R151). A receiving port that finds its
error in the end field of a frame has driven the acknowledgement slot of that frame before (R152). The recessive bits of
the line, the bit of the end field and whether a frame began after the mark, as operands, are the model's choice (log
28). -/
def Obligations.BusSendsAndReceptions : Prop :=
  (∀ (dominant : Bool) (endBit : Nat), (LineDrive.mark dominant endBit).bits =
    (if endBit = 0 then [] else false :: List.replicate endBit true) ++ List.replicate 7 (!dominant)) ∧
  ∀ (p : Port) (s : State), (s.port p).state = .normal ∨ (s.port p).state = .passive → (s.port p).txe ≤ 191 →
    let b := s.port p
    let counted (txe rxe : Nat) : Lkd :=
      if stateOfCounts txe rxe = b.state then s.lkd
      else s.lkd.raise ⟨.portState, s.rtu.counter,
        [.u2 (portCode p), .u2 b.state.code, .u2 (stateOfCounts txe rxe).code, .u2 PortCause.errors.code, .u2 txe,
          .u2 rxe]⟩
    (∀ idle : Nat, idle < 4 ∨ b.state = .passive ∧ b.lastOwn = true ∧ idle < 14 →
      exec (.sendStart p idle) s = .next s) ∧
    (∀ (idle : Nat) (e : QueueEntry) (rest : List QueueEntry) (f : Fixture), b.sending = none → b.queue = e :: rest →
      s.fbc.fixtures.find e.fixture = some f → 4 ≤ idle → (b.state = .passive → b.lastOwn = true → 14 ≤ idle) →
      let levels := (List.range f.count).map (fun i => (s.channel (f.first + i)).output)
      exec (.sendStart p idle) s = .next (setPort p { b with
        queue := { e with snapshot := some levels } :: rest,
        drive := .sending (busFrame f.address (levelPayload levels)) } s)) ∧
    (∀ e : QueueEntry, b.sending = some e → e.orphan = false →
      exec (.lostArbitration p) s = .next (setPort p { b with
        queue := b.queue.map (fun x => { x with snapshot := none }), drive := .released, lastOwn := false } s)) ∧
    (∀ (e : QueueEntry) (levels : List Nat) (f : Fixture), b.sending = some e → e.orphan = false →
      e.snapshot = some levels → s.fbc.fixtures.find e.fixture = some f → f.port = p →
      ∃ t : State, exec (.sendSuccess p) s = .next t ∧ (t.port p).txe = b.txe - 1 ∧ (t.port p).rxe = b.rxe ∧
        (t.port p).state = stateOfCounts (b.txe - 1) b.rxe ∧ (t.port p).sending = none ∧
        (t.port p).drive = .released ∧ (t.port p).lastOwn = true ∧
        t.fbc.fixtures.find e.fixture = some { f with sent := some levels, countdown := f.keepAlive } ∧
        (levels ≠ (List.range f.count).map (fun i => (s.channel (f.first + i)).output) →
          (t.port p).isQueued e.fixture = true ∨ (t.port p).isDirty e.fixture = true) ∧
        (∀ o, o ≠ p → t.port o = s.port o) ∧ t = { s with fbc := t.fbc, lkd := counted (b.txe - 1) b.rxe }) ∧
    (∀ (n : Nat) (bits : List Bool) (identifier : Nat) (payload : List Byte), b.sending = none →
      (∀ d j, b.drive ≠ .mark d j) ∨ 9 ≤ n → readBusFrame bits = some (identifier, payload) →
      let heard : BusPort := { b with
        rxe := b.rxe - 1, state := stateOfCounts b.txe (b.rxe - 1), drive := .ack, lastOwn := false }
      let after : Lkd := counted b.txe (b.rxe - 1)
      ∃ t : State, exec (.validReception p ⟨n, bits⟩) s = .next t ∧
        (∀ o, o ≠ p → t.port o = s.port o) ∧ t = { s with fbc := t.fbc, lkd := t.lkd } ∧
        ((∀ x ∈ b.filters.toList, ¬(x.enabled = true ∧ identifier &&& x.mask = x.value &&& x.mask)) →
          t.port p = heard ∧ t.fbc.fixtures = s.fbc.fixtures ∧ t.lkd = after) ∧
        (∀ x : Filter, x ∈ b.filters.toList → x.enabled = true → identifier &&& x.mask = x.value &&& x.mask →
          (∀ (id : Nat) (f : Fixture), 512 ≤ identifier → fixtureAt p (identifier - 512) s.fbc.fixtures = some id →
            s.fbc.fixtures.find id = some f →
            (∀ condition degrees : Byte, payload = [condition, degrees] → condition.toNat ≤ 2 →
              let state : FixtureState :=
                if condition.toNat = 0 then .ok else if condition.toNat = 1 then .warn else .fault
              let temperature : Int :=
                if degrees.toInt < -40 then -40 else if 125 < degrees.toInt then 125 else degrees.toInt
              t.port p = heard ∧
              t.fbc.fixtures.find id = some { f with state := state, temperature := some temperature, silence := 0 } ∧
              (∀ j, j ≠ id → t.fbc.fixtures.find j = s.fbc.fixtures.find j) ∧
              t.lkd = (if state = f.state then after
                else after.raise ⟨.fixtureState, s.rtu.counter,
                  [.u2 id, .u2 (portCode f.port), .u2 f.address, .u2 f.state.code, .u2 state.code,
                    .i2 temperature]⟩)) ∧
            ((∀ condition degrees : Byte, payload = [condition, degrees] → 2 < condition.toNat) →
              t.port p = { heard with ignored := min 65535 (b.ignored + 1) } ∧
              t.fbc.fixtures = s.fbc.fixtures ∧ t.lkd = after)) ∧
          (512 ≤ identifier → fixtureAt p (identifier - 512) s.fbc.fixtures = none →
            t.fbc.fixtures = s.fbc.fixtures ∧ t.port p = { heard with unknown := (t.port p).unknown } ∧
            (identifier - 512 ∈ b.unknown → (t.port p).unknown = b.unknown ∧ t.lkd = after) ∧
            (identifier - 512 ∉ b.unknown →
              (∀ a, a ∈ (t.port p).unknown ↔ a = identifier - 512 ∨ a ∈ b.unknown) ∧
              (t.port p).unknown.length = b.unknown.length + 1 ∧
              t.lkd = after.raise ⟨.unknownSource, s.rtu.counter, [.u2 (portCode p), .u2 (identifier - 512)]⟩)) ∧
          (∀ (id : Nat) (f : Fixture), identifier < 512 → fixtureAt p identifier s.fbc.fixtures = some id →
            s.fbc.fixtures.find id = some f →
            t.port p = heard ∧ t.fbc.fixtures.find id = some { f with clash := true } ∧
            (∀ j, j ≠ id → t.fbc.fixtures.find j = s.fbc.fixtures.find j) ∧
            t.lkd = (if f.clash = true then after
              else after.raise ⟨.addressClash, s.rtu.counter, [.u2 id, .u2 (portCode p), .u2 identifier]⟩)) ∧
          (identifier < 512 → fixtureAt p identifier s.fbc.fixtures = none →
            t.port p = heard ∧ t.fbc.fixtures = s.fbc.fixtures ∧ t.lkd = after))) ∧
    (∀ (d : Bool) (j : Nat), b.drive = .mark d j →
      let passed := setPort p { b with lastOwn := false } s
      (∀ e : BusFault, e.recessive < 9 → e.later = false → exec (.busError p e) s = .next s) ∧
      (∀ e : BusFault, e.recessive < 9 → e.later = true → b.sending = none → e.kind ≠ .bit → e.kind ≠ .missingAck →
        exec (.busError p e) s = .next passed) ∧
      ∀ r : BusReception, r.recessive < 9 →
        (b.sending ≠ none ∨ readBusFrame r.bits = none → exec (.validReception p r) s = .next s) ∧
        (b.sending = none → readBusFrame r.bits ≠ none → exec (.validReception p r) s = .next passed)) ∧
    (∀ (k : BusErrorKind) (n j : Nat) (l : Bool), b.sending ≠ none → k ≠ .check → (∀ d j, b.drive ≠ .mark d j) ∨ 9 ≤ n →
      ∃ t : State, exec (.busError p ⟨k, n, j, l⟩) s = .next t ∧ (t.port p).txe = b.txe + 8 ∧ (t.port p).rxe = b.rxe ∧
        (t.port p).state = stateOfCounts (b.txe + 8) b.rxe ∧ (t.port p).sending = none ∧
        (t.port p).lastOwn = true ∧
        (191 < b.txe + 8 → (t.port p).queue = [] ∧ (t.port p).drive = .released ∧ (t.port p).quiet = 0) ∧
        (b.txe + 8 ≤ 191 →
          (t.port p).drive = .mark (decide (b.txe + 8 < 96 ∧ b.rxe < 96)) 0 ∧
          ((∀ e ∈ b.queue, e.orphan = false) → (t.port p).queue.map (·.fixture) = b.queue.map (·.fixture))) ∧
        (∀ o, o ≠ p → t.port o = s.port o) ∧ t.fbc.fixtures = s.fbc.fixtures ∧
        t = { s with fbc := t.fbc, lkd := counted (b.txe + 8) b.rxe }) ∧
    (∀ (k : BusErrorKind) (n j : Nat) (l : Bool), b.sending = none → k ≠ .bit → k ≠ .missingAck → b.rxe ≤ 255 →
      (∀ d j, b.drive ≠ .mark d j) ∨ 9 ≤ n →
      ∃ t : State, exec (.busError p ⟨k, n, j, l⟩) s = .next t ∧ (t.port p).rxe = min 255 (b.rxe + 1) ∧
        (t.port p).txe = b.txe ∧
        (t.port p).state = stateOfCounts b.txe (min 255 (b.rxe + 1)) ∧ (t.port p).queue = b.queue ∧
        (t.port p).lastOwn = false ∧
        (t.port p).drive = .mark (decide (b.txe < 96 ∧ b.rxe + 1 < 96)) (if k = .form then j else 0) ∧
        (∀ o, o ≠ p → t.port o = s.port o) ∧ t.fbc.fixtures = s.fbc.fixtures ∧
        t = { s with fbc := t.fbc, lkd := counted b.txe (min 255 (b.rxe + 1)) })

/-- R150: what a port sends for an identifier and a payload, read off the line, is that identifier and that payload,
with every stuffed bit removed and the check right. -/
def Obligations.BusFramesRoundTrip : Prop :=
  ∀ (identifier : Nat) (payload : List Byte), identifier < 1024 → payload.length ≤ 32 →
    readBusFrame (busFrame identifier payload) = some (identifier, payload) ∧
    ∀ ack : Bool, readBusFrame (stuff false 0 (busBits identifier payload) ++ ack :: List.replicate 7 true) =
      some (identifier, payload)

/-! ## The Dimmer Output Unit -/

/-- R26, R165 to R168: SET DIMMER leaves a pending setting; a period start, which occurs once in a frame and at its
tick, fixes the width from the channel's output; the pulse is active for its width in ticks, through the end of a
frame that is no slip frame; and a boundary brings the pending setting into force, whose polarity the pin takes at once
where no period was in progress or the output loses its channel, and otherwise at the next period start (also where the
boundary cuts the period: the model's choice, log 45). That a period start comes as a
command that names its index and moves the tick is the model's choice (log 4, 31). -/
def Obligations.DimmerOutputs : Prop :=
  ∀ (o : Nat) (s : State), o ≤ 15 →
    let d := s.dimmer o
    (∀ (tag : Byte) (q : SetDimmerReq) (rest : List QueuedRequest) (p : DimmerPolarity),
      s.takes (.setDimmer tag q) rest → q.output = o → s.fsc.showLock = false →
      (∀ c, q.channel = some (some c) → c ≤ 767) →
      (∀ c, (d.pending.getD d.setting).channel = some c → c ≤ 767) →
      keepOr (d.pending.getD d.setting).polarity DimmerPolarity.ofCode q.polarity = some p →
      let base := d.pending.getD d.setting
      let channel := match q.channel with
        | none => base.channel
        | some c => c
      let divisor := match q.divisor with
        | none => base.divisor
        | some n => max 1 (min 64 n)
      let minWidth := match q.minWidth with
        | none => base.minWidth
        | some n => min 1023 n
      ∃ fields : List Field, exec (.setDimmer tag q) s = .next
        ((s.setDou { outputs := put s.dou.outputs o { d with pending := some ⟨channel, divisor, minWidth, p⟩ }
          }).answered tag 0x70 .ok fields rest)) ∧
    (∀ j c, d.setting.channel = some c → j < d.setting.divisor →
      let width := 65536 / d.setting.divisor
      let tick := (s.cph.phase * 64 + j * width) % 65536
      let level := (s.channel c).output
      let w := if level = 0 then 0
        else if level * width / 65535 = 0 ∨ level * width / 65535 < d.setting.minWidth then min d.setting.minWidth width
        else level * width / 65535
      (level = 65535 → d.setting.minWidth ≤ width → 0 < width → w = width) ∧
      (tick < s.rtu.tick ∨ j ∈ d.reached → exec (.dimmerPeriodStart o j) s = .next s) ∧
      (s.rtu.tick ≤ tick → j ∉ d.reached →
        exec (.dimmerPeriodStart o j) s = .next { s with
          rtu := { s.rtu with tick := tick }
          dou := { outputs := put s.dou.outputs o { d with
            width := w, active := decide (0 < w), driven := d.setting.polarity, period := some j, level := level
            ends := tick + w, reached := j :: d.reached } } })) ∧
    (d.setting.channel = none → ∀ j, exec (.dimmerPeriodStart o j) s = .next s) ∧
    (d.active = true → d.ends < s.rtu.endTick → exec (.dimmerPulseEnd o) s = .next { s with
      rtu := { s.rtu with tick := max s.rtu.tick d.ends }
      dou := { outputs := put s.dou.outputs o { d with active := false } } }) ∧
    (d.active = false ∨ s.rtu.endTick ≤ d.ends → exec (.dimmerPulseEnd o) s = .next s) ∧
    (∀ tick : Nat, d.pinHigh tick = true ↔
      ((d.active = true ∧ tick < d.ends) ↔ d.driven = .activeHigh)) ∧
    (∀ cut : Bool,
      let e := (douAtBoundary cut s).dimmer o
      e.pending = none ∧ e.setting = d.pending.getD d.setting ∧ e.reached = [] ∧
      (cut = true → e.active = false ∧ e.period = none) ∧
      (cut = false → (d.pending = none ∨ e.setting.channel ≠ none) →
        e.active = (d.active && decide (65536 < d.ends)) ∧ e.ends = d.ends - 65536 ∧ e.width = d.width) ∧
      (d.pending ≠ none → e.setting.channel = none → e.active = false ∧ e.width = 0 ∧ e.driven = e.setting.polarity) ∧
      e.driven = (if d.pending ≠ none ∧ (d.period = none ∨ e.setting.channel = none) then e.setting.polarity
        else d.driven))

/-! ## Invariants -/

/-- The DRAM keeps its canonical form, every table its rising numbers, every queue its size, and the phases stay on
their circle, whatever the step. -/
def Obligations.StepKeepsSizesAndForms : Prop :=
  ∀ s t : State, step s = .next t →
    (s.memoryWf → t.memoryWf) ∧ (s.tablesWf → t.tablesWf) ∧ (s.tablesWf → s.bounded → t.bounded) ∧
      (s.phasesInRange → t.phasesInRange)

/-- R66, R72: no layer ever latches the buffer that the live input writes, and the writer is never the newest. -/
def Obligations.StepKeepsWriterFree : Prop := ∀ s t : State, s.writerFree → step s = .next t → t.writerFree

/-- R154, R161: while a port is enabled and has joined, its state is the one that its counts give, and its queue holds
at most 32 entries. -/
def Obligations.StepKeepsPortsSettled : Prop := ∀ s t : State, s.portsSettled → step s = .next t → t.portsSettled

/-- R34, R37: every region lies on pages that exist, after every step; and so no step ends in the fault of an access
outside the store, or in any stop. -/
def Obligations.StepKeepsStoreSoundAndNeverStops : Prop :=
  ∀ s : State, s.storeSound → ∃ t : State, step s = .next t ∧ t.storeSound

/-- R39 to R42: the counts of every region are the numbers of what names it: its air count the layers, and the held
layers of the walls in FREEZE (R83, R85), that have it as their source; its reference count the stored actions and the
wait entries that name it (R110); its posted entries outstanding the entries of the posting buffer. So it is after every
step; and a region whose air count or reference count is above 0 goes with a full reset only. -/
def Obligations.StepKeepsRegionCounts : Prop :=
  ∀ s t : State, s.countsHold → step s = .next t →
    t.countsHold ∧
    ∀ id r, s.region id = some r → 0 < r.air ∨ 0 < r.ref → t.region id = none →
      t.fsc = { Fsc.reset with mem := t.fsc.mem }
end

