-- ==== Sys2Proof/Laws/Tables.lean ====
section
/-! SUPPORT. The small lemmas of the two kinds of table: reading after writing, and the canonical form of a table of
records. -/

namespace Sys2Proof.Machine

/-! ## Fixed tables -/

theorem at_put {α : Type} {n : Nat} (v : Vector α n) (i j : Nat) (x d : α) (h : i < n) :
    at_ (put v i x) j d = if j = i then x else at_ v j d := by
  unfold at_ put
  by_cases hj : j = i
  · subst hj
    simp [h]
  · have hij : i ≠ j := fun e => hj e.symm
    simp [hj, hij]

/-- The same for an entry read within the table, wherever the write went. -/
theorem at_put_read {α : Type} {n : Nat} (v : Vector α n) (i j : Nat) (x d : α) (h : j < n) :
    at_ (put v i x) j d = if j = i then x else at_ v j d := by
  by_cases hi : i < n
  · rw [at_put v i j x d hi]
  · have hne : j ≠ i := by omega
    have e : put v i x = v := by
      unfold put
      exact Vector.setIfInBounds_eq_of_size_le (by omega)
    rw [e, if_neg hne]

theorem mapFrom_getElem? {α β : Type} (f : Nat → α → β) (k : Nat) (l : List α) (i : Nat) :
    (mapFrom f k l)[i]? = (l[i]?).map (f (k + i)) := by
  induction l generalizing k i with
  | nil => simp [mapFrom]
  | cons x xs ih =>
    cases i with
    | zero => simp [mapFrom]
    | succ i =>
      simp only [mapFrom, List.getElem?_cons_succ, ih]
      congr 1
      rw [show k + 1 + i = k + (i + 1) by omega]

theorem at_mapNum {α : Type} {n : Nat} (f : Nat → α → α) (v : Vector α n) (i : Nat) (d : α) (h : i < n) :
    at_ (mapNum f v) i d = f i (at_ v i d) := by
  have e : (mapNum f v)[i]? = (v[i]?).map (f i) := by
    have := mapFrom_getElem? f 0 v.toList i
    simp only [Nat.zero_add] at this
    simpa [mapNum] using this
  unfold at_
  rw [e]
  simp [h]

theorem at_replicate {α : Type} (n i : Nat) (x d : α) (h : i < n) : at_ (Vector.replicate n x) i d = x := by
  simp [at_, h]

/-! ## Tables of records -/

namespace Table

variable {α : Type}

@[simp] theorem find_nil (k : Nat) : Table.find (α := α) k [] = none := rfl

theorem find_insert (k j : Nat) (x : α) (t : Table α) :
    (t.insert k x).find j = if j = k then some x else t.find j := by
  induction t with
  | nil => simp [Table.insert, Table.find]
  | cons e rest ih =>
    obtain ⟨i, y⟩ := e
    simp only [Table.insert]
    split
    · by_cases h : j = k <;> simp [Table.find, h]
    · split
      · rename_i h
        subst h
        by_cases h' : j = k <;> simp [Table.find, h']
      · rename_i h1 h2
        simp only [Table.find, ih]
        by_cases h : j = i
        · simp [h]
          omega
        · simp [h]

theorem find_erase (k j : Nat) (t : Table α) : (t.erase k).find j = if j = k then none else t.find j := by
  induction t with
  | nil => simp [Table.erase, Table.find]
  | cons e rest ih =>
    obtain ⟨i, y⟩ := e
    simp only [Table.erase]
    split
    · rename_i h
      rw [ih]
      by_cases h' : j = k
      · simp [h']
      · have : j ≠ i := by omega
        simp [h', Table.find, this]
    · simp only [Table.find, ih]
      by_cases h' : j = i
      · simp [h']
        omega
      · simp [h']

theorem find_modify (k j : Nat) (f : α → α) (t : Table α) :
    (t.modify k f).find j = if j = k then (t.find j).map f else t.find j := by
  induction t with
  | nil => simp [Table.modify, Table.find]
  | cons e rest ih =>
    obtain ⟨i, y⟩ := e
    simp only [Table.modify, Table.find]
    by_cases h : j = i
    · subst h
      by_cases h' : j = k
      · simp [h']
      · have : k ≠ j := fun e => h' e.symm
        simp [h', this]
    · simp [h, ih]

theorem find_mapAll (f : α → α) (j : Nat) (t : Table α) : (t.mapAll f).find j = (t.find j).map f := by
  induction t with
  | nil => rfl
  | cons e rest ih =>
    obtain ⟨i, y⟩ := e
    simp only [Table.mapAll, Table.find]
    split <;> simp_all

theorem find_keep (p : Nat → α → Bool) (j : Nat) (t : Table α) (h : t.wf = true) :
    (t.keep p).find j = (t.find j).filter (p j) := by
  have low : ∀ (t : Table α) (i : Nat) (y : α), Table.wf ((i, y) :: t) = true → t.find i = none := by
    intro t
    induction t with
    | nil => intros; rfl
    | cons e rest ih =>
      obtain ⟨k, z⟩ := e
      intro i y h
      simp only [Table.wf, Bool.and_eq_true, decide_eq_true_eq] at h
      have hk : i ≠ k := by omega
      simp only [Table.find, if_neg hk]
      cases rest with
      | nil => rfl
      | cons e' rest' =>
        obtain ⟨k', z'⟩ := e'
        refine ih i y ?_
        simp only [Table.wf, Bool.and_eq_true, decide_eq_true_eq] at h ⊢
        exact ⟨by omega, h.2.2⟩
  have tail : ∀ (i : Nat) (y : α) (t : Table α), Table.wf ((i, y) :: t) = true → t.wf = true := by
    intro i y t h
    cases t with
    | nil => rfl
    | cons e rest => obtain ⟨k, z⟩ := e; simp only [Table.wf, Bool.and_eq_true] at h; exact h.2
  induction t with
  | nil => rfl
  | cons e rest ih =>
    obtain ⟨i, y⟩ := e
    have hr := ih (tail i y rest h)
    have hl := low rest i y h
    simp only [Table.keep]
    by_cases hp : p i y = true
    · simp only [hp, if_true, Table.find]
      by_cases hj : j = i
      · subst hj; simp [Option.filter, hp]
      · simp [hj, hr]
    · simp only [hp, Bool.false_eq_true, if_false, hr, Table.find]
      by_cases hj : j = i
      · subst hj; simp [hl, Option.filter, hp]
      · simp [hj]

/-! ### The canonical form -/

theorem mem_insert (k : Nat) (x : α) (t : Table α) (e : Nat × α) (h : e ∈ t.insert k x) : e = (k, x) ∨ e ∈ t := by
  induction t with
  | nil => left; simpa [Table.insert] using h
  | cons e' rest ih =>
    obtain ⟨i, z⟩ := e'
    simp only [Table.insert] at h
    split at h
    · rcases List.mem_cons.1 h with rfl | h
      · exact .inl rfl
      · exact .inr h
    · split at h
      · rcases List.mem_cons.1 h with rfl | h
        · exact .inl rfl
        · exact .inr (List.mem_cons_of_mem _ h)
      · rcases List.mem_cons.1 h with rfl | h
        · exact .inr (by simp)
        · rcases ih h with h | h
          · exact .inl h
          · exact .inr (List.mem_cons_of_mem _ h)

theorem mem_erase (k : Nat) (t : Table α) (e : Nat × α) (h : e ∈ t.erase k) : e ∈ t := by
  induction t with
  | nil => simp [Table.erase] at h
  | cons e' rest ih =>
    obtain ⟨i, z⟩ := e'
    simp only [Table.erase] at h
    split at h
    · exact List.mem_cons_of_mem _ (ih h)
    · rcases List.mem_cons.1 h with rfl | h
      · simp
      · exact List.mem_cons_of_mem _ (ih h)

/-- Every number of the table is above `k`. -/
def above (k : Nat) (t : Table α) : Prop := ∀ e ∈ t, k < e.1

theorem wf_cons (k : Nat) (x : α) (t : Table α) : Table.wf ((k, x) :: t) = true ↔ above k t ∧ t.wf = true := by
  induction t generalizing k x with
  | nil => simp [Table.wf, above]
  | cons e rest ih =>
    obtain ⟨j, y⟩ := e
    simp only [Table.wf, Bool.and_eq_true, decide_eq_true_eq]
    constructor
    · rintro ⟨h1, h2⟩
      refine ⟨?_, h2⟩
      have := (ih j y).1 h2
      intro e he
      rcases List.mem_cons.1 he with rfl | he
      · exact h1
      · exact lt_trans h1 (this.1 e he)
    · rintro ⟨h1, h2⟩
      exact ⟨h1 (j, y) (by simp), h2⟩

theorem wf_insert (k : Nat) (x : α) (t : Table α) (h : t.wf = true) : (t.insert k x).wf = true := by
  induction t with
  | nil => rfl
  | cons e rest ih =>
    obtain ⟨j, y⟩ := e
    obtain ⟨ha, hr⟩ := (wf_cons j y rest).1 h
    simp only [Table.insert]
    split
    · rename_i hk
      refine (wf_cons k x _).2 ⟨?_, h⟩
      intro e he
      rcases List.mem_cons.1 he with rfl | he
      · exact hk
      · exact lt_trans hk (ha e he)
    · split
      · rename_i hk
        subst hk
        exact (wf_cons k x rest).2 ⟨ha, hr⟩
      · refine (wf_cons j y _).2 ⟨?_, ih hr⟩
        intro e he
        rcases mem_insert k x rest e he with rfl | he
        · simp only
          omega
        · exact ha e he

theorem wf_erase (k : Nat) (t : Table α) (h : t.wf = true) : (t.erase k).wf = true := by
  induction t with
  | nil => rfl
  | cons e rest ih =>
    obtain ⟨j, y⟩ := e
    obtain ⟨ha, hr⟩ := (wf_cons j y rest).1 h
    simp only [Table.erase]
    split
    · exact ih hr
    · exact (wf_cons j y _).2 ⟨fun e he => ha e (mem_erase k rest e he), ih hr⟩

end Table

end Sys2Proof.Machine
end

