-- ==== Sys2Proof/Laws/Counts.lean ====
section
/-! SUPPORT. What names a region (R39 to R41): on which fields the three numbers depend, and how a sum over the records
of a table moves when one record changes, comes or goes. -/

namespace Sys2Proof.Machine

theorem airNames_congr {s t : State} (h : t.wse.walls = s.wse.walls) (id : Nat) : t.airNames id = s.airNames id := by
  simp [State.airNames, h]

theorem refNames_congr {s t : State} (hc : t.cue.cues = s.cue.cues) (hw : t.cue.waits = s.cue.waits) (id : Nat) :
    t.refNames id = s.refNames id := by
  simp [State.refNames, hc, hw]

theorem postedNames_congr {s t : State} (h : t.fsc.posting = s.fsc.posting) (id : Nat) :
    t.postedNames id = s.postedNames id := by
  simp [State.postedNames, h]

/-- Where every number lies above `k`, changing or freeing `k` does nothing. -/
theorem Table.modify_above {α : Type} (k : Nat) (f : α → α) (t : Table α) (h : ∀ e ∈ t, k < e.1) : t.modify k f = t := by
  induction t with
  | nil => rfl
  | cons e rest ih =>
    have hne : k ≠ e.1 := Nat.ne_of_lt (h e (by simp))
    simp [Table.modify, hne, ih (fun x hx => h x (by simp [hx]))]

theorem Table.erase_above {α : Type} (k : Nat) (t : Table α) (h : ∀ e ∈ t, k < e.1) : t.erase k = t := by
  induction t with
  | nil => rfl
  | cons e rest ih =>
    have hne : k ≠ e.1 := Nat.ne_of_lt (h e (by simp))
    simp [Table.erase, hne, ih (fun x hx => h x (by simp [hx]))]

/-- One record changes: what it gave to the sum goes, and what it now gives comes. -/
theorem Table.sum_modify {α : Type} (n : α → Nat) (k : Nat) (f : α → α) (x : α) (t : Table α) (hwf : t.wf = true)
    (hx : t.find k = some x) :
    ((t.modify k f).map (fun e => n e.2)).sum + n x = (t.map (fun e => n e.2)).sum + n (f x) := by
  induction t with
  | nil => cases hx
  | cons e rest ih =>
    obtain ⟨ha, hr⟩ := (Table.wf_cons e.1 e.2 rest).mp hwf
    by_cases hk : k = e.1
    · subst hk
      have hxe : x = e.2 := by simpa [Table.find] using hx.symm
      subst hxe
      simp only [Table.modify, if_true, Table.modify_above _ f rest (fun y hy => ha y hy), List.map_cons, List.sum_cons]
      omega
    · have hrest := ih hr (by simpa [Table.find, hk] using hx)
      simp only [Table.modify, hk, if_false, List.map_cons, List.sum_cons]
      omega

/-- One record goes: what it gave to the sum goes with it. -/
theorem Table.sum_erase {α : Type} (n : α → Nat) (k : Nat) (x : α) (t : Table α) (hwf : t.wf = true)
    (hx : t.find k = some x) :
    ((t.erase k).map (fun e => n e.2)).sum + n x = (t.map (fun e => n e.2)).sum := by
  induction t with
  | nil => cases hx
  | cons e rest ih =>
    obtain ⟨ha, hr⟩ := (Table.wf_cons e.1 e.2 rest).mp hwf
    by_cases hk : k = e.1
    · subst hk
      have hxe : x = e.2 := by simpa [Table.find] using hx.symm
      subst hxe
      simp only [Table.erase, if_true, Table.erase_above _ rest (fun y hy => ha y hy), List.map_cons, List.sum_cons]
      omega
    · have hrest := ih hr (by simpa [Table.find, hk] using hx)
      simp only [Table.erase, hk, if_false, List.map_cons, List.sum_cons]
      omega

/-- One record comes under a number that was free: what it gives to the sum comes with it. -/
theorem Table.sum_insert {α : Type} (n : α → Nat) (k : Nat) (x : α) (t : Table α) (hx : t.find k = none) :
    ((t.insert k x).map (fun e => n e.2)).sum = (t.map (fun e => n e.2)).sum + n x := by
  induction t with
  | nil => simp [Table.insert]
  | cons e rest ih =>
    have hk : k ≠ e.1 := fun h => by simp [Table.find, h] at hx
    have hrest := ih (by simpa [Table.find, hk] using hx)
    by_cases hlt : k < e.1
    · simp only [Table.insert, hlt, if_true, List.map_cons, List.sum_cons]
      omega
    · simp only [Table.insert, hlt, hk, if_false, List.map_cons, List.sum_cons]
      omega

/-! ## What names a region when a wall record changes -/

/-- A wall record changes: the layers that it names before go, and those that it names now come. -/
theorem airNames_modWall (w id : Nat) (f : Wall → Wall) (x : Wall) (s : State) (hwf : Table.wf s.wse.walls = true)
    (hx : s.wall w = some x) :
    (modWall w f s).airNames id + x.airNames id = s.airNames id + (f x).airNames id :=
  Table.sum_modify (Wall.airNames id) w f x s.wse.walls hwf hx

end Sys2Proof.Machine
end

