-- ==== Sys2Proof/Laws/Frames.lean ====
section
/-! SUPPORT. Frames: for each operation, which blocks it can write. A lemma `f_keeps` says that whatever does not look
at those blocks (a projection `p`, with one hypothesis for each block that `f` writes) is unchanged by `f`; a proof
picks `p` and closes the hypotheses by `rfl`. Some hypotheses say less than "any value of the block": `hreg` replaces the
region table alone, `hwse` keeps the tile map, `hcue` the cue list, `hlvp` the curves, and `hrai` raises a notice. -/

set_option linter.unusedSimpArgs false
set_option linter.unusedTactic false
set_option linter.unnecessarySeqFocus false
set_option linter.constructorNameAsVariable false

namespace Sys2Proof.Machine

/-- The frame store with its region table replaced: what the operations on region counts write. -/
def State.withRegions (s : State) (r : Table Region) : Fsc := { s.fsc with regions := r }

theorem CueEngine.startFollow_cues (c : CueEngine) : c.startFollow.cues = c.cues := by
  unfold CueEngine.startFollow
  split <;> rfl

theorem foldl_keeps {α β : Type} (p : State → α) (f : State → β → State) (h : ∀ s b, p (f s b) = p s) (l : List β)
    (s : State) : p (l.foldl f s) = p s := by
  induction l generalizing s with
  | nil => rfl
  | cons b rest ih => rw [List.foldl_cons, ih, h]

theorem raise_keeps {α : Type} (p : State → α)
    (hrai : ∀ k d s, p (raise k d s) = p s) (k d) (s : State) :
    p (raise k d s) = p s := by
  exact hrai _ _ _

theorem modRegion_keeps {α : Type} (p : State → α)
    (hreg : ∀ s r, p (State.setFsc s (State.withRegions s r)) = p s) (id f) (s : State) :
    p (modRegion id f s) = p s := by
  exact hreg _ _

theorem airUp_keeps {α : Type} (p : State → α)
    (hreg : ∀ s r, p (State.setFsc s (State.withRegions s r)) = p s) (o) (s : State) :
    p (airUp o s) = p s := by
  simp only [airUp]
  repeat' split
  all_goals simp [modRegion_keeps p hreg, hreg]

theorem airDown_keeps {α : Type} (p : State → α)
    (hreg : ∀ s r, p (State.setFsc s (State.withRegions s r)) = p s) (o) (s : State) :
    p (airDown o s) = p s := by
  simp only [airDown]
  repeat' split
  all_goals simp [modRegion_keeps p hreg, hreg]

theorem airMove_keeps {α : Type} (p : State → α)
    (hreg : ∀ s r, p (State.setFsc s (State.withRegions s r)) = p s) (o n) (s : State) :
    p (airMove o n s) = p s := by
  simp only [airMove]
  repeat' split
  all_goals simp [airUp_keeps p hreg, airDown_keeps p hreg, hreg]

theorem refUp_keeps {α : Type} (p : State → α)
    (hreg : ∀ s r, p (State.setFsc s (State.withRegions s r)) = p s) (a) (s : State) :
    p (refUp a s) = p s := by
  simp only [refUp]
  repeat' split
  all_goals simp [modRegion_keeps p hreg, hreg]

theorem refDown_keeps {α : Type} (p : State → α)
    (hreg : ∀ s r, p (State.setFsc s (State.withRegions s r)) = p s) (a) (s : State) :
    p (refDown a s) = p s := by
  simp only [refDown]
  repeat' split
  all_goals simp [modRegion_keeps p hreg, hreg]

theorem postedUp_keeps {α : Type} (p : State → α)
    (hreg : ∀ s r, p (State.setFsc s (State.withRegions s r)) = p s) (id) (s : State) :
    p (postedUp id s) = p s := by
  simp only [postedUp]
  repeat' split
  all_goals simp [modRegion_keeps p hreg, hreg]

theorem postedDown_keeps {α : Type} (p : State → α)
    (hreg : ∀ s r, p (State.setFsc s (State.withRegions s r)) = p s) (id) (s : State) :
    p (postedDown id s) = p s := by
  simp only [postedDown]
  repeat' split
  all_goals simp [modRegion_keeps p hreg, hreg]

theorem enterGen_keeps {α : Type} (p : State → α)
    (hrtu : ∀ s x, p (State.setRtu s x) = p s) (hrai : ∀ k d s, p (raise k d s) = p s) (g c) (s : State) :
    p (enterGen g c s) = p s := by
  simp only [enterGen]
  repeat' split
  all_goals simp [raise_keeps p hrai, hrtu, hrai]

theorem enterAcquiring_keeps {α : Type} (p : State → α)
    (hrtu : ∀ s x, p (State.setRtu s x) = p s) (hrai : ∀ k d s, p (raise k d s) = p s) (o b c) (s : State) :
    p (enterAcquiring o b c s) = p s := by
  simp only [enterAcquiring]
  repeat' split
  all_goals simp [enterGen_keeps p hrtu hrai, hrtu, hrai]

theorem enterHoldover_keeps {α : Type} (p : State → α)
    (hrtu : ∀ s x, p (State.setRtu s x) = p s) (hrai : ∀ k d s, p (raise k d s) = p s) (c) (s : State) :
    p (enterHoldover c s) = p s := by
  simp only [enterHoldover]
  repeat' split
  all_goals simp [enterGen_keeps p hrtu hrai, hrtu, hrai]

theorem enterFreerun_keeps {α : Type} (p : State → α)
    (hrtu : ∀ s x, p (State.setRtu s x) = p s) (hrai : ∀ k d s, p (raise k d s) = p s) (c) (s : State) :
    p (enterFreerun c s) = p s := by
  simp only [enterFreerun]
  repeat' split
  all_goals simp [enterGen_keeps p hrtu hrai, hrtu, hrai]

theorem endSlip_keeps {α : Type} (p : State → α)
    (hrtu : ∀ s x, p (State.setRtu s x) = p s) (hrai : ∀ k d s, p (raise k d s) = p s) (a b) (s : State) :
    p (endSlip a b s) = p s := by
  simp only [endSlip]
  repeat' split
  all_goals simp [raise_keeps p hrai, hrtu, hrai]

theorem abandonAcquisition_keeps {α : Type} (p : State → α)
    (hrtu : ∀ s x, p (State.setRtu s x) = p s) (hrai : ∀ k d s, p (raise k d s) = p s) (s : State) :
    p (abandonAcquisition s) = p s := by
  simp only [abandonAcquisition]
  repeat' split
  all_goals simp [enterFreerun_keeps p hrtu hrai, enterGen_keeps p hrtu hrai, hrtu, hrai]

theorem genAtBoundary_keeps {α : Type} (p : State → α)
    (hrtu : ∀ s x, p (State.setRtu s x) = p s) (hrai : ∀ k d s, p (raise k d s) = p s) (s : State) :
    p (genAtBoundary s) = p s := by
  simp only [genAtBoundary]
  repeat' split
  all_goals simp [enterFreerun_keeps p hrtu hrai, abandonAcquisition_keeps p hrtu hrai, hrtu, hrai]

theorem warnStandard_keeps {α : Type} (p : State → α)
    (hrtu : ∀ s x, p (State.setRtu s x) = p s) (hrai : ∀ k d s, p (raise k d s) = p s) (q) (s : State) :
    p (warnStandard q s) = p s := by
  simp only [warnStandard]
  repeat' split
  all_goals simp [raise_keeps p hrai, hrtu, hrai]

theorem reenter_keeps {α : Type} (p : State → α)
    (hrtu : ∀ s x, p (State.setRtu s x) = p s) (hrai : ∀ k d s, p (raise k d s) = p s) (s : State) :
    p (reenter s) = p s := by
  simp only [reenter]
  repeat' split
  all_goals simp [enterGen_keeps p hrtu hrai, enterAcquiring_keeps p hrtu hrai, hrtu, hrai]

theorem cameraChange_keeps {α : Type} (p : State → α)
    (hrai : ∀ k d s, p (raise k d s) = p s) (b) (s : State) :
    p (cameraChange b s) = p s := by
  simp only [cameraChange]
  repeat' split
  all_goals simp [raise_keeps p hrai, hrai]

theorem cphAtBoundary_keeps {α : Type} (p : State → α)
    (hcph : ∀ s x, p (State.setCph s x) = p s) (hrai : ∀ k d s, p (raise k d s) = p s) (l) (s : State) :
    p (cphAtBoundary l s) = p s := by
  simp only [cphAtBoundary]
  repeat' split
  all_goals simp [cameraChange_keeps p hrai, hcph, hrai]

theorem setPort_keeps {α : Type} (p : State → α)
    (hfbc : ∀ s x, p (State.setFbc s x) = p s) (b x) (s : State) :
    p (setPort b x s) = p s := by
  simp only [setPort]
  repeat' split
  all_goals simp [hfbc]

theorem enterPort_keeps {α : Type} (p : State → α)
    (hfbc : ∀ s x, p (State.setFbc s x) = p s) (hrai : ∀ k d s, p (raise k d s) = p s) (b n c) (s : State) :
    p (enterPort b n c s) = p s := by
  simp only [enterPort]
  repeat' split
  all_goals simp [raise_keeps p hrai, setPort_keeps p hfbc, hfbc, hrai]

theorem markDirty_keeps {α : Type} (p : State → α)
    (hfbc : ∀ s x, p (State.setFbc s x) = p s) (i) (s : State) :
    p (markDirty i s) = p s := by
  simp only [markDirty]
  repeat' split
  all_goals simp [setPort_keeps p hfbc, hfbc]

theorem markChannel_keeps {α : Type} (p : State → α)
    (hfbc : ∀ s x, p (State.setFbc s x) = p s) (c) (s : State) :
    p (markChannel c s) = p s := by
  unfold markChannel
  exact foldl_keeps p _ (fun t b => by
    try dsimp only
    repeat' split
    all_goals simp [markDirty_keeps p hfbc, hfbc]) _ _

theorem settlePort_keeps {α : Type} (p : State → α)
    (hfbc : ∀ s x, p (State.setFbc s x) = p s) (hrai : ∀ k d s, p (raise k d s) = p s) (b) (s : State) :
    p (settlePort b s) = p s := by
  simp only [settlePort]
  repeat' split
  all_goals simp [enterPort_keeps p hfbc hrai, setPort_keeps p hfbc, hfbc, hrai]

theorem modFixture_keeps {α : Type} (p : State → α)
    (hfbc : ∀ s x, p (State.setFbc s x) = p s) (i f) (s : State) :
    p (modFixture i f s) = p s := by
  simp only [modFixture]
  repeat' split
  all_goals simp [hfbc]

theorem enterFixture_keeps {α : Type} (p : State → α)
    (hfbc : ∀ s x, p (State.setFbc s x) = p s) (hrai : ∀ k d s, p (raise k d s) = p s) (i n) (s : State) :
    p (enterFixture i n s) = p s := by
  simp only [enterFixture]
  repeat' split
  all_goals simp [raise_keeps p hrai, modFixture_keeps p hfbc, hfbc, hrai]

theorem fixtureStatus_keeps {α : Type} (p : State → α)
    (hfbc : ∀ s x, p (State.setFbc s x) = p s) (hrai : ∀ k d s, p (raise k d s) = p s) (b i y) (s : State) :
    p (fixtureStatus b i y s) = p s := by
  simp only [fixtureStatus]
  repeat' split
  all_goals simp [enterFixture_keeps p hfbc hrai, modFixture_keeps p hfbc, setPort_keeps p hfbc, hfbc, hrai]

theorem fixtureClash_keeps {α : Type} (p : State → α)
    (hfbc : ∀ s x, p (State.setFbc s x) = p s) (hrai : ∀ k d s, p (raise k d s) = p s) (b i a) (s : State) :
    p (fixtureClash b i a s) = p s := by
  simp only [fixtureClash]
  repeat' split
  all_goals simp [raise_keeps p hrai, modFixture_keeps p hfbc, hfbc, hrai]

theorem fixtureLogic_keeps {α : Type} (p : State → α)
    (hfbc : ∀ s x, p (State.setFbc s x) = p s) (hrai : ∀ k d s, p (raise k d s) = p s) (b i y) (s : State) :
    p (fixtureLogic b i y s) = p s := by
  simp only [fixtureLogic]
  repeat' split
  all_goals simp [fixtureStatus_keeps p hfbc hrai, fixtureClash_keeps p hfbc hrai, raise_keeps p hrai, setPort_keeps p
    hfbc, hfbc, hrai]

theorem compareSent_keeps {α : Type} (p : State → α)
    (hfbc : ∀ s x, p (State.setFbc s x) = p s) (i l) (s : State) :
    p (compareSent i l s) = p s := by
  simp only [compareSent]
  repeat' split
  all_goals simp [markDirty_keeps p hfbc, hfbc]

theorem keepAliveTick_keeps {α : Type} (p : State → α)
    (hfbc : ∀ s x, p (State.setFbc s x) = p s) (i) (s : State) :
    p (keepAliveTick i s) = p s := by
  simp only [keepAliveTick]
  repeat' split
  all_goals simp [markDirty_keeps p hfbc, modFixture_keeps p hfbc, hfbc]

theorem silenceTick_keeps {α : Type} (p : State → α)
    (hfbc : ∀ s x, p (State.setFbc s x) = p s) (hrai : ∀ k d s, p (raise k d s) = p s) (i) (s : State) :
    p (silenceTick i s) = p s := by
  simp only [silenceTick]
  repeat' split
  all_goals simp [enterFixture_keeps p hfbc hrai, modFixture_keeps p hfbc, hfbc, hrai]

theorem fbcAtBoundary_keeps {α : Type} (p : State → α)
    (hfbc : ∀ s x, p (State.setFbc s x) = p s) (hrai : ∀ k d s, p (raise k d s) = p s) (s : State) :
    p (fbcAtBoundary s) = p s := by
  unfold fbcAtBoundary
  exact foldl_keeps p _ (fun t b => by
    try dsimp only
    repeat' split
    all_goals simp [silenceTick_keeps p hfbc hrai, keepAliveTick_keeps p hfbc, hfbc, hrai]) _ _

theorem removeFixture_keeps {α : Type} (p : State → α)
    (hfbc : ∀ s x, p (State.setFbc s x) = p s) (i) (s : State) :
    p (removeFixture i s) = p s := by
  simp only [removeFixture]
  repeat' split
  all_goals simp [setPort_keeps p hfbc, hfbc]

theorem changeBus_keeps {α : Type} (p : State → α)
    (hfbc : ∀ s x, p (State.setFbc s x) = p s) (hrai : ∀ k d s, p (raise k d s) = p s) (b e r) (s : State) :
    p (changeBus b e r s) = p s := by
  simp only [changeBus]
  repeat' split
  all_goals simp [enterPort_keeps p hfbc hrai, setPort_keeps p hfbc, hfbc, hrai]

theorem modCount_keeps {α : Type} (p : State → α)
    (hcue : ∀ s x, x.cues = s.cue.cues → p (State.setCue s x) = p s) (n f) (s : State) :
    p (modCount n f s) = p s := by
  simp only [modCount]
  repeat' split
  all_goals simp [hcue]

theorem raiseCount_keeps {α : Type} (p : State → α)
    (hcue : ∀ s x, x.cues = s.cue.cues → p (State.setCue s x) = p s) (o) (s : State) :
    p (raiseCount o s) = p s := by
  cases o <;> simp only [raiseCount, modCount_keeps p hcue]

theorem lowerCount_keeps {α : Type} (p : State → α)
    (hcue : ∀ s x, x.cues = s.cue.cues → p (State.setCue s x) = p s) (o) (s : State) :
    p (lowerCount o s) = p s := by
  cases o <;> simp only [lowerCount, modCount_keeps p hcue]

theorem completeCue_keeps {α : Type} (p : State → α)
    (hcue : ∀ s x, x.cues = s.cue.cues → p (State.setCue s x) = p s) (hrai : ∀ k d s, p (raise k d s) = p s) (a) (s :
      State) :
    p (completeCue a s) = p s := by
  simp only [completeCue]
  split
  · rw [hcue, hrai, hcue] <;> first | rfl | exact CueEngine.startFollow_cues _
  · rw [hrai, hcue]
    rfl

theorem judge_keeps {α : Type} (p : State → α)
    (hcue : ∀ s x, x.cues = s.cue.cues → p (State.setCue s x) = p s) (hrai : ∀ k d s, p (raise k d s) = p s) (f) (s :
      State) :
    p (judge f s) = p s := by
  unfold judge
  exact foldl_keeps p _ (fun t b => by
    try dsimp only
    repeat' split
    all_goals simp [completeCue_keeps p hcue hrai, hcue, hrai]) _ _

theorem putChannel_keeps {α : Type} (p : State → α)
    (hlvp : ∀ s x, x.curves = s.lvp.curves → p (State.setLvp s x) = p s) (c x) (s : State) :
    p (putChannel c x s) = p s := by
  simp only [putChannel]
  repeat' split
  all_goals simp [hlvp]

theorem recompute_keeps {α : Type} (p : State → α)
    (hlvp : ∀ s x, x.curves = s.lvp.curves → p (State.setLvp s x) = p s) (hfbc : ∀ s x, p (State.setFbc s x) = p s)
      (c) (s : State) :
    p (recompute c s) = p s := by
  simp only [recompute]
  repeat' split
  all_goals simp [putChannel_keeps p hlvp, markChannel_keeps p hfbc, hlvp, hfbc]

theorem recomputeAll_keeps {α : Type} (p : State → α)
    (hlvp : ∀ s x, x.curves = s.lvp.curves → p (State.setLvp s x) = p s) (hfbc : ∀ s x, p (State.setFbc s x) = p s) (s
      : State) :
    p (recomputeAll s) = p s := by
  unfold recomputeAll
  exact foldl_keeps p _ (fun t b => by
    try dsimp only
    repeat' split
    all_goals simp [recompute_keeps p hlvp hfbc, hlvp, hfbc]) _ _

theorem setLevel_keeps {α : Type} (p : State → α)
    (hlvp : ∀ s x, x.curves = s.lvp.curves → p (State.setLvp s x) = p s) (hfbc : ∀ s x, p (State.setFbc s x) = p s) (t
      v) (s : State) :
    p (setLevel t v s) = p s := by
  simp only [setLevel]
  repeat' split
  all_goals simp [recompute_keeps p hlvp hfbc, recomputeAll_keeps p hlvp hfbc, hlvp, hfbc]

theorem removeFade_keeps {α : Type} (p : State → α)
    (hcue : ∀ s x, x.cues = s.cue.cues → p (State.setCue s x) = p s) (hlvp : ∀ s x, x.curves = s.lvp.curves → p
      (State.setLvp s x) = p s) (t) (s : State) :
    p (removeFade t s) = p s := by
  simp only [removeFade]
  repeat' split
  all_goals simp [lowerCount_keeps p hcue, hcue, hlvp]

theorem endFade_keeps {α : Type} (p : State → α)
    (hcue : ∀ s x, x.cues = s.cue.cues → p (State.setCue s x) = p s) (hlvp : ∀ s x, x.curves = s.lvp.curves → p
      (State.setLvp s x) = p s) (hfbc : ∀ s x, p (State.setFbc s x) = p s) (t f) (s : State) :
    p (endFade t f s) = p s := by
  simp only [endFade]
  repeat' split
  all_goals simp [removeFade_keeps p hcue hlvp, setLevel_keeps p hlvp hfbc, hcue, hlvp, hfbc]

theorem advanceFade_keeps {α : Type} (p : State → α)
    (hcue : ∀ s x, x.cues = s.cue.cues → p (State.setCue s x) = p s) (hlvp : ∀ s x, x.curves = s.lvp.curves → p
      (State.setLvp s x) = p s) (hfbc : ∀ s x, p (State.setFbc s x) = p s) (a t) (s : State) :
    p (advanceFade a t s) = p s := by
  simp only [advanceFade]
  repeat' split
  all_goals simp [endFade_keeps p hcue hlvp hfbc, setLevel_keeps p hlvp hfbc, hcue, hlvp, hfbc]

theorem advanceFades_keeps {α : Type} (p : State → α)
    (hcue : ∀ s x, x.cues = s.cue.cues → p (State.setCue s x) = p s) (hlvp : ∀ s x, x.curves = s.lvp.curves → p
      (State.setLvp s x) = p s) (hfbc : ∀ s x, p (State.setFbc s x) = p s) (a) (s : State) :
    p (advanceFades a s) = p s := by
  unfold advanceFades
  exact foldl_keeps p _ (fun t b => by
    try dsimp only
    repeat' split
    all_goals simp [advanceFade_keeps p hcue hlvp hfbc, hcue, hlvp, hfbc]) _ _

theorem startFade_keeps {α : Type} (p : State → α)
    (hcue : ∀ s x, x.cues = s.cue.cues → p (State.setCue s x) = p s) (hlvp : ∀ s x, x.curves = s.lvp.curves → p
      (State.setLvp s x) = p s) (hfbc : ∀ s x, p (State.setFbc s x) = p s) (t v d c o) (s : State) :
    p (startFade t v d c o s) = p s := by
  simp only [startFade]
  repeat' split
  all_goals simp [removeFade_keeps p hcue hlvp, setLevel_keeps p hlvp hfbc, raiseCount_keeps p hcue, hcue, hlvp, hfbc]

theorem startManual_keeps {α : Type} (p : State → α)
    (hcue : ∀ s x, x.cues = s.cue.cues → p (State.setCue s x) = p s) (hlvp : ∀ s x, x.curves = s.lvp.curves → p
      (State.setLvp s x) = p s) (hfbc : ∀ s x, p (State.setFbc s x) = p s) (hrai : ∀ k d s, p (raise k d s) = p s) (s
      : State) :
    p (startManual s) = p s := by
  unfold startManual
  rw [foldl_keeps p _ (fun t b => by simp [judge_keeps p hcue hrai, startFade_keeps p hcue hlvp hfbc, hcue, hlvp,
    hfbc, hrai])]
  simp [judge_keeps p hcue hrai, startFade_keeps p hcue hlvp hfbc, hcue, hlvp, hfbc, hrai]

theorem trackChannel_keeps {α : Type} (p : State → α)
    (hlvp : ∀ s x, x.curves = s.lvp.curves → p (State.setLvp s x) = p s) (hfbc : ∀ s x, p (State.setFbc s x) = p s) (z
      a c) (s : State) :
    p (trackChannel z a c s) = p s := by
  simp only [trackChannel]
  repeat' split
  all_goals simp [recompute_keeps p hlvp hfbc, putChannel_keeps p hlvp, hlvp, hfbc]

theorem trackZone_keeps {α : Type} (p : State → α)
    (hlvp : ∀ s x, x.curves = s.lvp.curves → p (State.setLvp s x) = p s) (hfbc : ∀ s x, p (State.setFbc s x) = p s) (z
      a) (s : State) :
    p (trackZone z a s) = p s := by
  unfold trackZone
  exact foldl_keeps p _ (fun t b => by
    try dsimp only
    repeat' split
    all_goals simp [trackChannel_keeps p hlvp hfbc, hlvp, hfbc]) _ _

theorem configureChannel_keeps {α : Type} (p : State → α)
    (hlvp : ∀ s x, x.curves = s.lvp.curves → p (State.setLvp s x) = p s) (hfbc : ∀ s x, p (State.setFbc s x) = p s) (m
      k q c) (s : State) :
    p (configureChannel m k q c s) = p s := by
  simp only [configureChannel]
  repeat' split
  all_goals simp [recompute_keeps p hlvp hfbc, putChannel_keeps p hlvp, hlvp, hfbc]

theorem modWall_keeps {α : Type} (p : State → α)
    (hwse : ∀ s x, x.tiles = s.wse.tiles → p (State.setWse s x) = p s) (w f) (s : State) :
    p (modWall w f s) = p s := by
  simp only [modWall]
  repeat' split
  all_goals simp [hwse]

theorem changeLayer_keeps {α : Type} (p : State → α)
    (hreg : ∀ s r, p (State.setFsc s (State.withRegions s r)) = p s) (hwse : ∀ s x, x.tiles = s.wse.tiles → p
      (State.setWse s x) = p s) (w l x) (s : State) :
    p (changeLayer w l x s) = p s := by
  simp only [changeLayer]
  repeat' split
  all_goals simp [modWall_keeps p hwse, airMove_keeps p hreg, hreg, hwse]

theorem Action_effect_keeps {α : Type} (p : State → α)
    (hreg : ∀ s r, p (State.setFsc s (State.withRegions s r)) = p s) (hwse : ∀ s x, x.tiles = s.wse.tiles → p
      (State.setWse s x) = p s) (hcue : ∀ s x, x.cues = s.cue.cues → p (State.setCue s x) = p s) (hlvp : ∀ s x,
      x.curves = s.lvp.curves → p (State.setLvp s x) = p s) (hfbc : ∀ s x, p (State.setFbc s x) = p s) (o a) (s :
      State) :
    p (Action.effect o a s) = p s := by
  cases a <;> simp only [Action.effect, changeLayer_keeps p hreg hwse, startFade_keeps p hcue hlvp hfbc, modWall_keeps
    p hwse] <;>
    first
    | rfl
    | exact foldl_keeps p _ (fun t b => startFade_keeps p hcue hlvp hfbc _ _ _ _ _ t) _ _

theorem runAction_keeps {α : Type} (p : State → α)
    (hreg : ∀ s r, p (State.setFsc s (State.withRegions s r)) = p s) (hwse : ∀ s x, x.tiles = s.wse.tiles → p
      (State.setWse s x) = p s) (hcue : ∀ s x, x.cues = s.cue.cues → p (State.setCue s x) = p s) (hlvp : ∀ s x,
      x.curves = s.lvp.curves → p (State.setLvp s x) = p s) (hfbc : ∀ s x, p (State.setFbc s x) = p s) (hrai : ∀ k d
      s, p (raise k d s) = p s) (o n b a) (s : State) :
    p (runAction o n b a s) = p s := by
  simp only [runAction]
  repeat' split
  all_goals simp [raise_keeps p hrai, Action_effect_keeps p hreg hwse hcue hlvp hfbc, hreg, hwse, hcue, hlvp, hfbc,
    hrai]

theorem supersede_keeps {α : Type} (p : State → α)
    (hcue : ∀ s x, x.cues = s.cue.cues → p (State.setCue s x) = p s) (hlvp : ∀ s x, x.curves = s.lvp.curves → p
      (State.setLvp s x) = p s) (hrai : ∀ k d s, p (raise k d s) = p s) (a) (s : State) :
    p (supersede a s) = p s := by
  simp only [supersede]
  rw [hrai, hlvp, hcue] <;> rfl

theorem makeRoom_keeps {α : Type} (p : State → α)
    (hcue : ∀ s x, x.cues = s.cue.cues → p (State.setCue s x) = p s) (hlvp : ∀ s x, x.curves = s.lvp.curves → p
      (State.setLvp s x) = p s) (hrai : ∀ k d s, p (raise k d s) = p s) (n) (s : State) :
    p (makeRoom n s) = p s := by
  simp only [makeRoom]
  repeat' split
  all_goals simp [supersede_keeps p hcue hlvp hrai, hcue, hlvp, hrai]

theorem addWait_keeps {α : Type} (p : State → α)
    (hreg : ∀ s r, p (State.setFsc s (State.withRegions s r)) = p s) (hcue : ∀ s x, x.cues = s.cue.cues → p
      (State.setCue s x) = p s) (n i d a) (s : State) :
    p (addWait n i d a s) = p s := by
  simp only [addWait]
  repeat' split
  all_goals simp [refUp_keeps p hreg, modCount_keeps p hcue, hreg, hcue]

theorem fireAction_keeps {α : Type} (p : State → α)
    (hreg : ∀ s r, p (State.setFsc s (State.withRegions s r)) = p s) (hwse : ∀ s x, x.tiles = s.wse.tiles → p
      (State.setWse s x) = p s) (hcue : ∀ s x, x.cues = s.cue.cues → p (State.setCue s x) = p s) (hlvp : ∀ s x,
      x.curves = s.lvp.curves → p (State.setLvp s x) = p s) (hfbc : ∀ s x, p (State.setFbc s x) = p s) (hrai : ∀ k d
      s, p (raise k d s) = p s)
    (n i t) (f : Firing) : p (fireAction n i t f).state = p f.state := by
  simp only [fireAction]
  repeat' split
  all_goals simp [judge_keeps p hcue hrai, runAction_keeps p hreg hwse hcue hlvp hfbc hrai, addWait_keeps p hreg hcue,
    hcue]

theorem fireActions_keeps {α : Type} (p : State → α)
    (hreg : ∀ s r, p (State.setFsc s (State.withRegions s r)) = p s) (hwse : ∀ s x, x.tiles = s.wse.tiles → p
      (State.setWse s x) = p s) (hcue : ∀ s x, x.cues = s.cue.cues → p (State.setCue s x) = p s) (hlvp : ∀ s x,
      x.curves = s.lvp.curves → p (State.setLvp s x) = p s) (hfbc : ∀ s x, p (State.setFbc s x) = p s) (hrai : ∀ k d
      s, p (raise k d s) = p s)
    (n i l) (f : Firing) : p (fireActions n i l f).state = p f.state := by
  induction l generalizing i f with
  | nil => rfl
  | cons t rest ih => rw [fireActions, ih, fireAction_keeps p hreg hwse hcue hlvp hfbc hrai]

theorem fireCue_keeps {α : Type} (p : State → α)
    (hreg : ∀ s r, p (State.setFsc s (State.withRegions s r)) = p s) (hwse : ∀ s x, x.tiles = s.wse.tiles → p
      (State.setWse s x) = p s) (hcue : ∀ s x, x.cues = s.cue.cues → p (State.setCue s x) = p s) (hlvp : ∀ s x,
      x.curves = s.lvp.curves → p (State.setLvp s x) = p s) (hfbc : ∀ s x, p (State.setFbc s x) = p s) (hrai : ∀ k d
      s, p (raise k d s) = p s) (n o) (s : State) :
    p (fireCue n o s) = p s := by
  simp only [fireCue]
  split
  · rfl
  · rw [judge_keeps p hcue hrai, raise_keeps p hrai,
      fireActions_keeps p hreg hwse hcue hlvp hfbc hrai]
    simp [makeRoom_keeps p hcue hlvp hrai, hcue]

theorem advanceTime_keeps {α : Type} (p : State → α)
    (hcue : ∀ s x, x.cues = s.cue.cues → p (State.setCue s x) = p s) (hlvp : ∀ s x, x.curves = s.lvp.curves → p
      (State.setLvp s x) = p s) (hfbc : ∀ s x, p (State.setFbc s x) = p s) (hrai : ∀ k d s, p (raise k d s) = p s) (a)
      (s : State) :
    p (advanceTime a s) = p s := by
  simp only [advanceTime]
  repeat' split
  all_goals simp [advanceFades_keeps p hcue hlvp hfbc, judge_keeps p hcue hrai, hcue, hlvp, hfbc, hrai]

theorem runDue_keeps {α : Type} (p : State → α)
    (hreg : ∀ s r, p (State.setFsc s (State.withRegions s r)) = p s) (hwse : ∀ s x, x.tiles = s.wse.tiles → p
      (State.setWse s x) = p s) (hcue : ∀ s x, x.cues = s.cue.cues → p (State.setCue s x) = p s) (hlvp : ∀ s x,
      x.curves = s.lvp.curves → p (State.setLvp s x) = p s) (hfbc : ∀ s x, p (State.setFbc s x) = p s) (hrai : ∀ k d
      s, p (raise k d s) = p s) (e) (s : State) :
    p (runDue e s) = p s := by
  simp only [runDue]
  repeat' split
  all_goals simp [judge_keeps p hcue hrai, lowerCount_keeps p hcue, refDown_keeps p hreg, runAction_keeps p hreg hwse
    hcue hlvp hfbc hrai, hreg, hwse, hcue, hlvp, hfbc, hrai]

theorem tallyFire_keeps {α : Type} (p : State → α)
    (hreg : ∀ s r, p (State.setFsc s (State.withRegions s r)) = p s) (hwse : ∀ s x, x.tiles = s.wse.tiles → p
      (State.setWse s x) = p s) (hcue : ∀ s x, x.cues = s.cue.cues → p (State.setCue s x) = p s) (hlvp : ∀ s x,
      x.curves = s.lvp.curves → p (State.setLvp s x) = p s) (hfbc : ∀ s x, p (State.setFbc s x) = p s) (hrai : ∀ k d
      s, p (raise k d s) = p s) (r) (s : State) :
    p (tallyFire r s) = p s := by
  simp only [tallyFire]
  repeat' split
  all_goals simp [fireCue_keeps p hreg hwse hcue hlvp hfbc hrai, hreg, hwse, hcue, hlvp, hfbc, hrai]

theorem chooseFire_keeps {α : Type} (p : State → α)
    (hreg : ∀ s r, p (State.setFsc s (State.withRegions s r)) = p s) (hwse : ∀ s x, x.tiles = s.wse.tiles → p
      (State.setWse s x) = p s) (hcue : ∀ s x, x.cues = s.cue.cues → p (State.setCue s x) = p s) (hlvp : ∀ s x,
      x.curves = s.lvp.curves → p (State.setLvp s x) = p s) (hfbc : ∀ s x, p (State.setFbc s x) = p s) (hrai : ∀ k d
      s, p (raise k d s) = p s) (b a r) (s : State) :
    p (chooseFire b a r s) = p s := by
  simp only [chooseFire]
  repeat' split
  all_goals simp [fireCue_keeps p hreg hwse hcue hlvp hfbc hrai, tallyFire_keeps p hreg hwse hcue hlvp hfbc hrai,
    hreg, hwse, hcue, hlvp, hfbc, hrai]

theorem cueAtBoundary_keeps {α : Type} (p : State → α)
    (hreg : ∀ s r, p (State.setFsc s (State.withRegions s r)) = p s) (hwse : ∀ s x, x.tiles = s.wse.tiles → p
      (State.setWse s x) = p s) (hcue : ∀ s x, x.cues = s.cue.cues → p (State.setCue s x) = p s) (hlvp : ∀ s x,
      x.curves = s.lvp.curves → p (State.setLvp s x) = p s) (hfbc : ∀ s x, p (State.setFbc s x) = p s) (hrai : ∀ k d
      s, p (raise k d s) = p s) (r) (s : State) :
    p (cueAtBoundary r s) = p s := by
  simp only [cueAtBoundary]
  rw [chooseFire_keeps p hreg hwse hcue hlvp hfbc hrai,
    foldl_keeps p _ (fun t e => runDue_keeps p hreg hwse hcue hlvp hfbc hrai e t), startManual_keeps p hcue hlvp hfbc
      hrai]
  split <;> simp [advanceTime_keeps p hcue hlvp hfbc hrai, hcue]

theorem replaceCue_keeps {α : Type} (p : State → α)
    (hreg : ∀ s r, p (State.setFsc s (State.withRegions s r)) = p s) (hcus : ∀ s x, p (State.setCue s x) = p s) (n c)
      (s : State) :
    p (replaceCue n c s) = p s := by
  simp only [replaceCue]
  rw [hcus, foldl_keeps p _ (fun t a => refUp_keeps p hreg _ t), foldl_keeps p _ (fun t a => refDown_keeps p hreg _ t)]

theorem removeCue_keeps {α : Type} (p : State → α)
    (hreg : ∀ s r, p (State.setFsc s (State.withRegions s r)) = p s) (hcus : ∀ s x, p (State.setCue s x) = p s) (n c)
      (s : State) :
    p (removeCue n c s) = p s := by
  simp only [removeCue]
  rw [hcus, foldl_keeps p _ (fun t a => refDown_keeps p hreg _ t)]

theorem enterLive_keeps {α : Type} (p : State → α)
    (hlip : ∀ s x, p (State.setLip s x) = p s) (hrai : ∀ k d s, p (raise k d s) = p s) (o n c) (s : State) :
    p (enterLive o n c s) = p s := by
  simp only [enterLive]
  repeat' split
  all_goals simp [raise_keeps p hrai, hlip, hrai]

theorem completeInput_keeps {α : Type} (p : State → α)
    (hlip : ∀ s x, p (State.setLip s x) = p s) (hrai : ∀ k d s, p (raise k d s) = p s) (s : State) :
    p (completeInput s) = p s := by
  simp only [completeInput]
  repeat' split
  all_goals simp [enterLive_keeps p hlip hrai, hlip, hrai]

theorem endInput_keeps {α : Type} (p : State → α) (hlip : ∀ s x, p (State.setLip s x) = p s) (s : State) :
    p (endInput s) = p s := by
  simp only [endInput]
  split
  all_goals simp [hlip]

theorem liveAtBoundary_keeps {α : Type} (p : State → α)
    (hlip : ∀ s x, p (State.setLip s x) = p s) (hrai : ∀ k d s, p (raise k d s) = p s) (s : State) :
    p (liveAtBoundary s) = p s := by
  simp only [liveAtBoundary]
  repeat' split
  all_goals simp [endInput_keeps p hlip, enterLive_keeps p hlip hrai, hlip, hrai]

theorem rebind_keeps {α : Type} (p : State → α)
    (hlip : ∀ s x, p (State.setLip s x) = p s) (hrai : ∀ k d s, p (raise k d s) = p s) (r) (s : State) :
    p (rebind r s) = p s := by
  simp only [rebind]
  repeat' split
  all_goals simp [enterLive_keeps p hlip hrai, hlip, hrai]

theorem setClip_keeps {α : Type} (p : State → α)
    (hwse : ∀ s x, x.tiles = s.wse.tiles → p (State.setWse s x) = p s) (w b) (s : State) :
    p (setClip w b s) = p s := by
  simp only [setClip]
  repeat' split
  all_goals simp [modWall_keeps p hwse, hwse]

theorem composeRun_keeps {α : Type} (p : State → α)
    (hwse : ∀ s x, x.tiles = s.wse.tiles → p (State.setWse s x) = p s) (w n x f) (s : State) :
    p (composeRun w n x f s) = p s := by
  simp only [composeRun]
  repeat' split
  all_goals simp [hwse]

theorem sendSubFrame_keeps {α : Type} (p : State → α)
    (hwse : ∀ s x, x.tiles = s.wse.tiles → p (State.setWse s x) = p s) (w x f) (s : State) :
    p (sendSubFrame w x f s) = p s := by
  simp only [sendSubFrame]
  repeat' split
  all_goals simp [setClip_keeps p hwse, hwse]

theorem moveTick_keeps {α : Type} (p : State → α)
    (hrtu : ∀ s x, p (State.setRtu s x) = p s) (t) (s : State) :
    p (moveTick t s) = p s := by
  simp only [moveTick]
  repeat' split
  all_goals simp [hrtu]

theorem completeZone_keeps {α : Type} (p : State → α)
    (hwse : ∀ s x, x.tiles = s.wse.tiles → p (State.setWse s x) = p s) (hlvp : ∀ s x, x.curves = s.lvp.curves → p
      (State.setLvp s x) = p s) (hfbc : ∀ s x, p (State.setFbc s x) = p s) (i) (s : State) :
    p (completeZone i s) = p s := by
  simp only [completeZone]
  repeat' split
  all_goals simp [trackZone_keeps p hlvp hfbc, hwse, hlvp, hfbc]

theorem removeWallFades_keeps {α : Type} (p : State → α)
    (hcue : ∀ s x, x.cues = s.cue.cues → p (State.setCue s x) = p s) (hlvp : ∀ s x, x.curves = s.lvp.curves → p
      (State.setLvp s x) = p s) (w) (s : State) :
    p (removeWallFades w s) = p s := by
  unfold removeWallFades
  exact foldl_keeps p _ (fun t b => by
    try dsimp only
    repeat' split
    all_goals simp [removeFade_keeps p hcue hlvp, hcue, hlvp]) _ _

theorem createWall_keeps {α : Type} (p : State → α)
    (hwse : ∀ s x, x.tiles = s.wse.tiles → p (State.setWse s x) = p s) (hcue : ∀ s x, x.cues = s.cue.cues → p
      (State.setCue s x) = p s) (hlvp : ∀ s x, x.curves = s.lvp.curves → p (State.setLvp s x) = p s) (hfbc : ∀ s x, p
      (State.setFbc s x) = p s) (hrai : ∀ k d s, p (raise k d s) = p s) (q) (s : State) :
    p (createWall q s) = p s := by
  simp only [createWall]
  rw [judge_keeps p hcue hrai, foldl_keeps p _ (fun t a => setLevel_keeps p hlvp hfbc _ _ t),
    removeWallFades_keeps p hcue hlvp]
  exact hwse _ _ rfl

theorem putChain_keeps {α : Type} (p : State → α)
    (hwse : ∀ s x, x.tiles = s.wse.tiles → p (State.setWse s x) = p s) (c x) (s : State) :
    p (putChain c x s) = p s := by
  simp only [putChain]
  repeat' split
  all_goals simp [hwse]

theorem enterChain_keeps {α : Type} (p : State → α)
    (hwse : ∀ s x, x.tiles = s.wse.tiles → p (State.setWse s x) = p s) (hrai : ∀ k d s, p (raise k d s) = p s) (c n w)
      (s : State) :
    p (enterChain c n w s) = p s := by
  simp only [enterChain]
  repeat' split
  all_goals simp [raise_keeps p hrai, putChain_keeps p hwse, hwse, hrai]

theorem chainTilesChanged_keeps {α : Type} (p : State → α)
    (hwse : ∀ s x, x.tiles = s.wse.tiles → p (State.setWse s x) = p s) (hrai : ∀ k d s, p (raise k d s) = p s) (b c)
      (s : State) :
    p (chainTilesChanged b c s) = p s := by
  simp only [chainTilesChanged]
  repeat' split
  all_goals simp [enterChain_keeps p hwse hrai, putChain_keeps p hwse, hwse, hrai]

theorem tilesChanged_keeps {α : Type} (p : State → α)
    (hwse : ∀ s x, x.tiles = s.wse.tiles → p (State.setWse s x) = p s) (hrai : ∀ k d s, p (raise k d s) = p s) (b) (s
      : State) :
    p (tilesChanged b s) = p s := by
  unfold tilesChanged
  exact foldl_keeps p _ (fun t b => by
    try dsimp only
    repeat' split
    all_goals simp [chainTilesChanged_keeps p hwse hrai, hwse, hrai]) _ _

theorem releaseHeld_keeps {α : Type} (p : State → α)
    (hreg : ∀ s r, p (State.setFsc s (State.withRegions s r)) = p s) (h) (s : State) :
    p (releaseHeld h s) = p s := by
  simp only [releaseHeld]
  split
  · rfl
  · exact foldl_keeps p _ (fun t a => airDown_keeps p hreg _ t) _ _

theorem clearLatches_keeps {α : Type} (p : State → α)
    (hlip : ∀ s x, p (State.setLip s x) = p s) (w) (s : State) :
    p (clearLatches w s) = p s := by
  simp only [clearLatches]
  repeat' split
  all_goals simp [hlip]

theorem discardManual_keeps {α : Type} (p : State → α)
    (hlvp : ∀ s x, x.curves = s.lvp.curves → p (State.setLvp s x) = p s) (w) (s : State) :
    p (discardManual w s) = p s := by
  simp only [discardManual]
  repeat' split
  all_goals simp [hlvp]

theorem freeChains_keeps {α : Type} (p : State → α)
    (hwse : ∀ s x, x.tiles = s.wse.tiles → p (State.setWse s x) = p s) (w b) (s : State) :
    p (freeChains w b s) = p s := by
  simp only [freeChains]
  repeat' split
  all_goals simp [hwse]

theorem removeWallTiles_keeps {α : Type} (p : State → α)
    (hwse : ∀ s x, x.tiles = s.wse.tiles → p (State.setWse s x) = p s) (hwst : ∀ s x, p (State.setWse s x) = p s)
      (hrai : ∀ k d s, p (raise k d s) = p s) (w) (s : State) :
    p (removeWallTiles w s) = p s := by
  simp only [removeWallTiles]
  repeat' split
  all_goals simp [tilesChanged_keeps p hwse hrai, freeChains_keeps p hwse, hwse, hwst, hrai]

theorem removeWall_keeps {α : Type} (p : State → α)
    (hreg : ∀ s r, p (State.setFsc s (State.withRegions s r)) = p s) (hlip : ∀ s x, p (State.setLip s x) = p s) (hwse
      : ∀ s x, x.tiles = s.wse.tiles → p (State.setWse s x) = p s) (hwst : ∀ s x, p (State.setWse s x) = p s) (hcue :
      ∀ s x, x.cues = s.cue.cues → p (State.setCue s x) = p s) (hlvp : ∀ s x, x.curves = s.lvp.curves → p
      (State.setLvp s x) = p s) (hrai : ∀ k d s, p (raise k d s) = p s) (w x) (s : State) :
    p (removeWall w x s) = p s := by
  simp only [removeWall]
  rw [judge_keeps p hcue hrai, hwst, removeWallTiles_keeps p hwse hwst hrai, discardManual_keeps p hlvp,
    removeWallFades_keeps p hcue hlvp, clearLatches_keeps p hlip, releaseHeld_keeps p hreg,
    foldl_keeps p _ (fun t a => airDown_keeps p hreg _ t)]

theorem placeTile_keeps {α : Type} (p : State → α)
    (hwse : ∀ s x, x.tiles = s.wse.tiles → p (State.setWse s x) = p s) (hwst : ∀ s x, p (State.setWse s x) = p s)
      (hrai : ∀ k d s, p (raise k d s) = p s) (i t) (s : State) :
    p (placeTile i t s) = p s := by
  simp only [placeTile]
  repeat' split
  all_goals simp [tilesChanged_keeps p hwse hrai, hwse, hwst, hrai]

theorem takeTile_keeps {α : Type} (p : State → α)
    (hwse : ∀ s x, x.tiles = s.wse.tiles → p (State.setWse s x) = p s) (hwst : ∀ s x, p (State.setWse s x) = p s)
      (hrai : ∀ k d s, p (raise k d s) = p s) (i) (s : State) :
    p (takeTile i s) = p s := by
  simp only [takeTile]
  repeat' split
  all_goals simp [tilesChanged_keeps p hwse hrai, hwse, hwst, hrai]

theorem setZones_keeps {α : Type} (p : State → α)
    (hwse : ∀ s x, x.tiles = s.wse.tiles → p (State.setWse s x) = p s) (z) (s : State) :
    p (setZones z s) = p s := by
  simp only [setZones]
  repeat' split
  all_goals simp [hwse]

theorem putDimmer_keeps {α : Type} (p : State → α)
    (hdou : ∀ s x, p (State.setDou s x) = p s) (o d) (s : State) :
    p (putDimmer o d s) = p s := by
  simp only [putDimmer]
  repeat' split
  all_goals simp [hdou]

theorem douAtBoundary_keeps {α : Type} (p : State → α)
    (hdou : ∀ s x, p (State.setDou s x) = p s) (c) (s : State) :
    p (douAtBoundary c s) = p s := by
  simp only [douAtBoundary]
  repeat' split
  all_goals simp [hdou]

theorem latchWall_keeps {α : Type} (p : State → α)
    (hlip : ∀ s x, p (State.setLip s x) = p s) (w k x) (s : State) :
    p (latchWall w k x s) = p s := by
  simp only [latchWall]
  repeat' split
  all_goals simp [hlip]

theorem settleMode_keeps {α : Type} (p : State → α)
    (hreg : ∀ s r, p (State.setFsc s (State.withRegions s r)) = p s) (hlip : ∀ s x, p (State.setLip s x) = p s) (hwse
      : ∀ s x, x.tiles = s.wse.tiles → p (State.setWse s x) = p s) (w) (s : State) :
    p (settleMode w s) = p s := by
  simp only [settleMode]
  repeat' split
  · rfl
  · rw [latchWall_keeps p hlip, foldl_keeps p _ (fun t a => airUp_keeps p hreg _ t), modWall_keeps p hwse]
  all_goals simp [latchWall_keeps p hlip, releaseHeld_keeps p hreg, modWall_keeps p hwse]

theorem settleFrames_keeps {α : Type} (p : State → α)
    (hwse : ∀ s x, x.tiles = s.wse.tiles → p (State.setWse s x) = p s) (s : State) :
    p (settleFrames s) = p s := by
  simp only [settleFrames]
  repeat' split
  all_goals simp [hwse]

theorem settleShedding_keeps {α : Type} (p : State → α)
    (hwse : ∀ s x, x.tiles = s.wse.tiles → p (State.setWse s x) = p s) (hrai : ∀ k d s, p (raise k d s) = p s) (w) (s
      : State) :
    p (settleShedding w s) = p s := by
  simp only [settleShedding]
  repeat' split
  all_goals simp [raise_keeps p hrai, modWall_keeps p hwse, hwse, hrai]

theorem judgeChain_keeps {α : Type} (p : State → α)
    (hwse : ∀ s x, x.tiles = s.wse.tiles → p (State.setWse s x) = p s) (hrai : ∀ k d s, p (raise k d s) = p s) (c) (s
      : State) :
    p (judgeChain c s) = p s := by
  simp only [judgeChain]
  repeat' split
  all_goals simp [putChain_keeps p hwse, enterChain_keeps p hwse hrai, hwse, hrai]

theorem beginSending_keeps {α : Type} (p : State → α)
    (hwse : ∀ s x, x.tiles = s.wse.tiles → p (State.setWse s x) = p s) (s : State) :
    p (beginSending s) = p s := by
  simp only [beginSending]
  repeat' split
  all_goals simp [hwse]

theorem wseAtBoundary_keeps {α : Type} (p : State → α)
    (hreg : ∀ s r, p (State.setFsc s (State.withRegions s r)) = p s) (hlip : ∀ s x, p (State.setLip s x) = p s) (hwse
      : ∀ s x, x.tiles = s.wse.tiles → p (State.setWse s x) = p s) (hrai : ∀ k d s, p (raise k d s) = p s) (s : State) :
    p (wseAtBoundary s) = p s := by
  simp only [wseAtBoundary]
  rw [beginSending_keeps p hwse, foldl_keeps p _ (fun t c => judgeChain_keeps p hwse hrai c t),
    foldl_keeps p _ (fun t c => settleShedding_keeps p hwse hrai c t), settleFrames_keeps p hwse,
    foldl_keeps p _ (fun t c => settleMode_keeps p hreg hlip hwse c t)]

theorem completeZones_keeps {α : Type} (p : State → α)
    (hwse : ∀ s x, x.tiles = s.wse.tiles → p (State.setWse s x) = p s) (hlvp : ∀ s x, x.curves = s.lvp.curves → p
      (State.setLvp s x) = p s) (hfbc : ∀ s x, p (State.setFbc s x) = p s) (s : State) :
    p (completeZones s) = p s := by
  unfold completeZones
  exact foldl_keeps p _ (fun t b => by
    try dsimp only
    repeat' split
    all_goals simp [completeZone_keeps p hwse hlvp hfbc, hwse, hlvp, hfbc]) _ _

theorem blocksAtBoundary_keeps {α : Type} (p : State → α)
    (hcph : ∀ s x, p (State.setCph s x) = p s) (hreg : ∀ s r, p (State.setFsc s (State.withRegions s r)) = p s) (hlip
      : ∀ s x, p (State.setLip s x) = p s) (hwse : ∀ s x, x.tiles = s.wse.tiles → p (State.setWse s x) = p s) (hcue :
      ∀ s x, x.cues = s.cue.cues → p (State.setCue s x) = p s) (hlvp : ∀ s x, x.curves = s.lvp.curves → p
      (State.setLvp s x) = p s) (hfbc : ∀ s x, p (State.setFbc s x) = p s) (hdou : ∀ s x, p (State.setDou s x) = p s)
      (hrai : ∀ k d s, p (raise k d s) = p s) (l c) (s : State) :
    p (blocksAtBoundary l c s) = p s := by
  simp only [blocksAtBoundary]
  repeat' split
  all_goals simp [cphAtBoundary_keeps p hcph hrai, liveAtBoundary_keeps p hlip hrai, cueAtBoundary_keeps p hreg hwse
    hcue hlvp hfbc hrai, wseAtBoundary_keeps p hreg hlip hwse hrai, fbcAtBoundary_keeps p hfbc hrai,
    douAtBoundary_keeps p hdou, hcph, hreg, hlip, hwse, hcue, hlvp, hfbc, hdou, hrai]

theorem endLengthened_keeps {α : Type} (p : State → α)
    (hrtu : ∀ s x, p (State.setRtu s x) = p s) (hrai : ∀ k d s, p (raise k d s) = p s) (o) (s : State) :
    p (endLengthened o s) = p s := by
  simp only [endLengthened]
  repeat' split
  all_goals simp [endSlip_keeps p hrtu hrai, hrtu, hrai]

/-- Whatever the generator does at it, a boundary keeps what the generator and the blocks keep. -/
theorem takeBoundary_keeps {α : Type} (p : State → α)
    (hrtu : ∀ s x, p (State.setRtu s x) = p s) (hcph : ∀ s x, p (State.setCph s x) = p s) (hreg : ∀ s r, p
      (State.setFsc s (State.withRegions s r)) = p s) (hlip : ∀ s x, p (State.setLip s x) = p s) (hwse : ∀ s x,
      x.tiles = s.wse.tiles → p (State.setWse s x) = p s) (hcue : ∀ s x, x.cues = s.cue.cues → p (State.setCue s x) =
      p s) (hlvp : ∀ s x, x.curves = s.lvp.curves → p (State.setLvp s x) = p s) (hfbc : ∀ s x, p (State.setFbc s x) =
      p s) (hdou : ∀ s x, p (State.setDou s x) = p s) (hrai : ∀ k d s, p (raise k d s) = p s) (gen : State → State)
    (hgen : ∀ s, p (gen s) = p s) (t lines cut) (s : State) : p (takeBoundary t lines cut gen s) = p s := by
  simp only [takeBoundary]
  rw [blocksAtBoundary_keeps p hcph hreg hlip hwse hcue hlvp hfbc hdou hrai, hgen, hrtu, completeZones_keeps p hwse
    hlvp hfbc]

theorem tickBoundary_keeps {α : Type} (p : State → α)
    (hrtu : ∀ s x, p (State.setRtu s x) = p s) (hcph : ∀ s x, p (State.setCph s x) = p s) (hreg : ∀ s r, p
      (State.setFsc s (State.withRegions s r)) = p s) (hlip : ∀ s x, p (State.setLip s x) = p s) (hwse : ∀ s x,
      x.tiles = s.wse.tiles → p (State.setWse s x) = p s) (hcue : ∀ s x, x.cues = s.cue.cues → p (State.setCue s x) =
      p s) (hlvp : ∀ s x, x.curves = s.lvp.curves → p (State.setLvp s x) = p s) (hfbc : ∀ s x, p (State.setFbc s x) =
      p s) (hdou : ∀ s x, p (State.setDou s x) = p s) (hrai : ∀ k d s, p (raise k d s) = p s) (l) (s : State) :
    p (tickBoundary l s) = p s := by
  simp only [tickBoundary, takeBoundary]
  simp [blocksAtBoundary_keeps p hcph hreg hlip hwse hcue hlvp hfbc hdou hrai, endLengthened_keeps p hrtu hrai,
    genAtBoundary_keeps p hrtu hrai, completeZones_keeps p hwse hlvp hfbc, hrtu, hcph, hreg, hlip, hwse, hcue, hlvp,
    hfbc, hdou, hrai]

theorem lateBoundary_keeps {α : Type} (p : State → α)
    (hrtu : ∀ s x, p (State.setRtu s x) = p s) (hcph : ∀ s x, p (State.setCph s x) = p s) (hreg : ∀ s r, p
      (State.setFsc s (State.withRegions s r)) = p s) (hlip : ∀ s x, p (State.setLip s x) = p s) (hwse : ∀ s x,
      x.tiles = s.wse.tiles → p (State.setWse s x) = p s) (hcue : ∀ s x, x.cues = s.cue.cues → p (State.setCue s x) =
      p s) (hlvp : ∀ s x, x.curves = s.lvp.curves → p (State.setLvp s x) = p s) (hfbc : ∀ s x, p (State.setFbc s x) =
      p s) (hdou : ∀ s x, p (State.setDou s x) = p s) (hrai : ∀ k d s, p (raise k d s) = p s) (l) (s : State) :
    p (lateBoundary l s) = p s := by
  simp only [lateBoundary, takeBoundary]
  simp [blocksAtBoundary_keeps p hcph hreg hlip hwse hcue hlvp hfbc hdou hrai, endLengthened_keeps p hrtu hrai,
    enterHoldover_keeps p hrtu hrai, completeZones_keeps p hwse hlvp hfbc, hrtu, hcph, hreg, hlip, hwse, hcue, hlvp,
    hfbc, hdou, hrai]

theorem boundaryWhen_keeps {α : Type} (p : State → α)
    (hrtu : ∀ s x, p (State.setRtu s x) = p s) (hcph : ∀ s x, p (State.setCph s x) = p s) (hreg : ∀ s r, p
      (State.setFsc s (State.withRegions s r)) = p s) (hlip : ∀ s x, p (State.setLip s x) = p s) (hwse : ∀ s x,
      x.tiles = s.wse.tiles → p (State.setWse s x) = p s) (hcue : ∀ s x, x.cues = s.cue.cues → p (State.setCue s x) =
      p s) (hlvp : ∀ s x, x.curves = s.lvp.curves → p (State.setLvp s x) = p s) (hfbc : ∀ s x, p (State.setFbc s x) =
      p s) (hdou : ∀ s x, p (State.setDou s x) = p s) (hrai : ∀ k d s, p (raise k d s) = p s) (b l) (s : State) :
    p (boundaryWhen b l s) = p s := by
  simp only [boundaryWhen]
  repeat' split
  all_goals simp [tickBoundary_keeps p hrtu hcph hreg hlip hwse hcue hlvp hfbc hdou hrai, hrtu, hcph, hreg, hlip,
    hwse, hcue, hlvp, hfbc, hdou, hrai]

theorem enterLocked_keeps {α : Type} (p : State → α)
    (hrtu : ∀ s x, p (State.setRtu s x) = p s) (hrai : ∀ k d s, p (raise k d s) = p s) (t q) (s : State) :
    p (enterLocked t q s) = p s := by
  simp only [enterLocked]
  repeat' split
  all_goals simp [enterGen_keeps p hrtu hrai, hrtu, hrai]

theorem lock_keeps {α : Type} (p : State → α)
    (hrtu : ∀ s x, p (State.setRtu s x) = p s) (hcph : ∀ s x, p (State.setCph s x) = p s) (hreg : ∀ s r, p
      (State.setFsc s (State.withRegions s r)) = p s) (hlip : ∀ s x, p (State.setLip s x) = p s) (hwse : ∀ s x,
      x.tiles = s.wse.tiles → p (State.setWse s x) = p s) (hcue : ∀ s x, x.cues = s.cue.cues → p (State.setCue s x) =
      p s) (hlvp : ∀ s x, x.curves = s.lvp.curves → p (State.setLvp s x) = p s) (hfbc : ∀ s x, p (State.setFbc s x) =
      p s) (hdou : ∀ s x, p (State.setDou s x) = p s) (hrai : ∀ k d s, p (raise k d s) = p s) (t q l) (s : State) :
    p (lock t q l s) = p s := by
  simp only [lock, takeBoundary]
  repeat' split
  all_goals simp [enterLocked_keeps p hrtu hrai, endSlip_keeps p hrtu hrai, blocksAtBoundary_keeps p hcph hreg hlip
    hwse hcue hlvp hfbc hdou hrai, completeZones_keeps p hwse hlvp hfbc, hrtu, hcph, hreg, hlip, hwse, hcue, hlvp,
    hfbc, hdou, hrai]

theorem acquire_keeps {α : Type} (p : State → α)
    (hrtu : ∀ s x, p (State.setRtu s x) = p s) (hcph : ∀ s x, p (State.setCph s x) = p s) (hreg : ∀ s r, p
      (State.setFsc s (State.withRegions s r)) = p s) (hlip : ∀ s x, p (State.setLip s x) = p s) (hwse : ∀ s x,
      x.tiles = s.wse.tiles → p (State.setWse s x) = p s) (hcue : ∀ s x, x.cues = s.cue.cues → p (State.setCue s x) =
      p s) (hlvp : ∀ s x, x.curves = s.lvp.curves → p (State.setLvp s x) = p s) (hfbc : ∀ s x, p (State.setFbc s x) =
      p s) (hdou : ∀ s x, p (State.setDou s x) = p s) (hrai : ∀ k d s, p (raise k d s) = p s) (t q l) (s : State) :
    p (acquire t q l s) = p s := by
  simp only [acquire]
  repeat' split
  all_goals simp [lock_keeps p hrtu hcph hreg hlip hwse hcue hlvp hfbc hdou hrai, warnStandard_keeps p hrtu hrai,
    hrtu, hcph, hreg, hlip, hwse, hcue, hlvp, hfbc, hdou, hrai]

theorem onTimeStart_keeps {α : Type} (p : State → α)
    (hrtu : ∀ s x, p (State.setRtu s x) = p s) (hrai : ∀ k d s, p (raise k d s) = p s) (t) (s : State) :
    p (onTimeStart t s) = p s := by
  simp only [onTimeStart]
  repeat' split
  all_goals simp [enterHoldover_keeps p hrtu hrai, hrtu, hrai]

theorem referenceStart_keeps {α : Type} (p : State → α)
    (hrtu : ∀ s x, p (State.setRtu s x) = p s) (hcph : ∀ s x, p (State.setCph s x) = p s) (hreg : ∀ s r, p
      (State.setFsc s (State.withRegions s r)) = p s) (hlip : ∀ s x, p (State.setLip s x) = p s) (hwse : ∀ s x,
      x.tiles = s.wse.tiles → p (State.setWse s x) = p s) (hcue : ∀ s x, x.cues = s.cue.cues → p (State.setCue s x) =
      p s) (hlvp : ∀ s x, x.curves = s.lvp.curves → p (State.setLvp s x) = p s) (hfbc : ∀ s x, p (State.setFbc s x) =
      p s) (hdou : ∀ s x, p (State.setDou s x) = p s) (hrai : ∀ k d s, p (raise k d s) = p s) (t l) (s : State) :
    p (referenceStart t l s) = p s := by
  simp only [referenceStart, takeBoundary]
  repeat' split
  all_goals simp [acquire_keeps p hrtu hcph hreg hlip hwse hcue hlvp hfbc hdou hrai, enterAcquiring_keeps p hrtu hrai,
    onTimeStart_keeps p hrtu hrai, endLengthened_keeps p hrtu hrai, blocksAtBoundary_keeps p hcph hreg hlip hwse hcue
    hlvp hfbc hdou hrai, completeZones_keeps p hwse hlvp hfbc, hrtu, hcph, hreg, hlip, hwse, hcue, hlvp, hfbc, hdou,
    hrai]

theorem setLines_keeps {α : Type} (p : State → α)
    (hcph : ∀ s x, p (State.setCph s x) = p s) (l) (s : State) :
    p (setLines l s) = p s := by
  simp only [setLines]
  repeat' split
  all_goals simp [hcph]

theorem linkError_keeps {α : Type} (p : State → α)
    (hlkd : ∀ s x, p (State.setLkd s x) = p s) (s : State) :
    p (linkError s) = p s := by
  simp only [linkError]
  repeat' split
  all_goals simp [hlkd]

theorem huntChar_keeps {α : Type} (p : State → α)
    (hlkd : ∀ s x, p (State.setLkd s x) = p s) (c) (s : State) :
    p (huntChar c s) = p s := by
  simp only [huntChar]
  repeat' split
  all_goals simp [hlkd]

theorem joinQueue_keeps {α : Type} (p : State → α)
    (hlkd : ∀ s x, p (State.setLkd s x) = p s) (q t k) (s : State) :
    p (joinQueue q t k s) = p s := by
  simp only [joinQueue]
  repeat' split
  all_goals simp [hlkd]

theorem endFrame_keeps {α : Type} (p : State → α)
    (hlkd : ∀ s x, p (State.setLkd s x) = p s) (b) (s : State) :
    p (endFrame b s) = p s := by
  simp only [endFrame]
  repeat' split
  all_goals simp [linkError_keeps p hlkd, joinQueue_keeps p hlkd, hlkd]

theorem frameByte_keeps {α : Type} (p : State → α)
    (hlkd : ∀ s x, p (State.setLkd s x) = p s) (b) (s : State) :
    p (frameByte b s) = p s := by
  simp only [frameByte]
  repeat' split
  all_goals simp [linkError_keeps p hlkd, endFrame_keeps p hlkd, hlkd]

theorem answerHead_keeps {α : Type} (p : State → α)
    (hlkd : ∀ s x, p (State.setLkd s x) = p s) (t k st f) (s : State) :
    p (answerHead t k st f s) = p s := by
  simp only [answerHead]
  repeat' split
  all_goals simp [hlkd]

theorem linkReset_keeps {α : Type} (p : State → α)
    (hlkd : ∀ s x, p (State.setLkd s x) = p s) (s : State) :
    p (linkReset s) = p s := by
  simp only [linkReset]
  repeat' split
  all_goals simp [hlkd]

end Sys2Proof.Machine
end

