-- ==== Sys2Proof/Laws/Effects.lean ====
section
/-! SUPPORT. Effects: for the shared operations on regions, levels, fades, channels, ports and chains, what each writes.
What an operation leaves alone is said in Frames.lean. -/

namespace Sys2Proof.Machine

/-! ## Regions and their counts, R39 to R41 -/

theorem region_modRegion (id j : Nat) (f : Region → Region) (s : State) :
    (modRegion id f s).region j = if j = id then (s.region j).map f else s.region j :=
  Table.find_modify id j f s.fsc.regions

theorem region_airUp (source : Option Nat) (j : Nat) (s : State) :
    (airUp source s).region j =
      (s.region j).map (fun r => { r with air := if source = some j then r.air + 1 else r.air }) := by
  cases source with
  | none => simp [airUp]
  | some id =>
    simp only [airUp, region_modRegion, Option.some.injEq]
    by_cases h : j = id
    · simp [h]
    · have : id ≠ j := fun e => h e.symm
      simp [h, this]

theorem region_airDown (source : Option Nat) (j : Nat) (s : State) :
    (airDown source s).region j =
      (s.region j).map (fun r => { r with air := if source = some j then r.air - 1 else r.air }) := by
  cases source with
  | none => simp [airDown]
  | some id =>
    simp only [airDown, region_modRegion, Option.some.injEq]
    by_cases h : j = id
    · simp [h]
    · have : id ≠ j := fun e => h e.symm
      simp [h, this]

theorem region_refUp (a : Action) (j : Nat) (s : State) :
    (refUp a s).region j =
      (s.region j).map (fun r => { r with ref := if a.region = some j then r.ref + 1 else r.ref }) := by
  unfold refUp
  cases h : a.region with
  | none => simp
  | some id =>
    simp only [region_modRegion, Option.some.injEq]
    by_cases h : j = id
    · simp [h]
    · have : id ≠ j := fun e => h e.symm
      simp [h, this]

theorem region_refDown (a : Action) (j : Nat) (s : State) :
    (refDown a s).region j =
      (s.region j).map (fun r => { r with ref := if a.region = some j then r.ref - 1 else r.ref }) := by
  unfold refDown
  cases h : a.region with
  | none => simp
  | some id =>
    simp only [region_modRegion, Option.some.injEq]
    by_cases h : j = id
    · simp [h]
    · have : id ≠ j := fun e => h e.symm
      simp [h, this]

/-- Air counts after every source of a list has lost one. -/
theorem region_foldl_airDown {β : Type} (source : β → Option Nat) (l : List β) (j : Nat) (s : State) :
    (l.foldl (fun t b => airDown (source b) t) s).region j =
      (s.region j).map (fun r => { r with air := r.air - l.countP (fun b => decide (source b = some j)) }) := by
  induction l generalizing s with
  | nil => simp
  | cons b rest ih =>
    rw [List.foldl_cons, ih, region_airDown, Option.map_map]
    congr 1
    funext r
    by_cases h : source b = some j
    · simp [Function.comp, h]
      omega
    · simp [Function.comp, h]

/-- Air counts after every source of a list has gained one. -/
theorem region_foldl_airUp {β : Type} (source : β → Option Nat) (l : List β) (j : Nat) (s : State) :
    (l.foldl (fun t b => airUp (source b) t) s).region j =
      (s.region j).map (fun r => { r with air := r.air + l.countP (fun b => decide (source b = some j)) }) := by
  induction l generalizing s with
  | nil => simp
  | cons b rest ih =>
    rw [List.foldl_cons, ih, region_airUp, Option.map_map]
    congr 1
    funext r
    by_cases h : source b = some j
    · simp [Function.comp, h]
      omega
    · simp [Function.comp, h]

/-- Reference counts after every action of a list has gone. -/
theorem region_foldl_refDown (l : List TimedAction) (j : Nat) (s : State) :
    (l.foldl (fun t a => refDown a.action t) s).region j =
      (s.region j).map (fun r => { r with ref := r.ref - l.countP (fun a => decide (a.action.region = some j)) }) := by
  induction l generalizing s with
  | nil => simp
  | cons b rest ih =>
    rw [List.foldl_cons, ih, region_refDown, Option.map_map]
    congr 1
    funext r
    by_cases h : b.action.region = some j
    · simp [Function.comp, h]
      omega
    · simp [Function.comp, h]

/-- Reference counts after every action of a list has come. -/
theorem region_foldl_refUp (l : List TimedAction) (j : Nat) (s : State) :
    (l.foldl (fun t a => refUp a.action t) s).region j =
      (s.region j).map (fun r => { r with ref := r.ref + l.countP (fun a => decide (a.action.region = some j)) }) := by
  induction l generalizing s with
  | nil => simp
  | cons b rest ih =>
    rw [List.foldl_cons, ih, region_refUp, Option.map_map]
    congr 1
    funext r
    by_cases h : b.action.region = some j
    · simp [Function.comp, h]
      omega
    · simp [Function.comp, h]

/-! ## Levels and channels, R131, R141, R143 -/

/-- The level targets are none of a channel's business. -/
theorem recompute_targets (c : Nat) (s : State) : (recompute c s).lvp.targets = s.lvp.targets := by
  unfold recompute
  dsimp only
  split
  · rfl
  · exact markChannel_keeps (fun t => t.lvp.targets) (fun _ _ => rfl) _ _

theorem recomputeAll_targets (s : State) : (recomputeAll s).lvp.targets = s.lvp.targets := by
  unfold recomputeAll
  exact foldl_keeps (fun t => t.lvp.targets) _ (fun t c => recompute_targets c t) _ _

/-- Writing a level writes that level and no other. -/
theorem setLevel_targets (target v : Nat) (s : State) :
    (setLevel target v s).lvp.targets = if s.level target = v then s.lvp.targets else put s.lvp.targets target v := by
  unfold setLevel
  split
  · rfl
  · dsimp only
    split
    · rw [recompute_targets]; rfl
    · split
      · rw [recomputeAll_targets]; rfl
      · rfl

theorem level_setLevel (target v j : Nat) (s : State) (h : j ≤ 788) :
    (setLevel target v s).level j = if j = target then v else s.level j := by
  have hp : at_ (put s.lvp.targets target v) j 0 = if j = target then v else s.level j := at_put_read _ _ _ _ _ (by
    omega)
  unfold State.level at *
  rw [setLevel_targets]
  split
  · rename_i e
    by_cases hj : j = target
    · subst hj; simpa [State.level] using e
    · simp [hj]
  · exact hp

/-- What recomputing a channel leaves in every channel. -/
theorem channel_recompute (c j : Nat) (s : State) (h : j < 768) :
    (recompute c s).channel j =
      if j = c then (s.channel c).compute (s.level c) (s.level masterTarget) else s.channel j := by
  have hp : (putChannel c ((s.channel c).compute (s.level c) (s.level masterTarget)) s).channel j =
      if j = c then (s.channel c).compute (s.level c) (s.level masterTarget) else s.channel j :=
    at_put_read _ _ _ _ _ h
  unfold recompute
  dsimp only
  split
  · exact hp
  · rw [← hp]
    exact markChannel_keeps (fun t => t.channel j) (fun _ _ => rfl) _ _

theorem channel_putChannel (c j : Nat) (x : Channel) (s : State) (h : j < 768) :
    (putChannel c x s).channel j = if j = c then x else s.channel j := at_put_read _ _ _ _ _ h

/-! ## Fades, R132 to R134, R140 -/

theorem lowerCount_lvp (o : Owner) (s : State) : (lowerCount o s).lvp = s.lvp := by
  cases o <;> rfl

theorem raiseCount_lvp (o : Owner) (s : State) : (raiseCount o s).lvp = s.lvp := by
  cases o <;> rfl

theorem removeFade_lvp (target : Nat) (s : State) :
    (removeFade target s).lvp =
      { s.lvp with fades := if (s.lvp.fades.find target).isSome then s.lvp.fades.erase target else s.lvp.fades } := by
  unfold removeFade
  split
  · rename_i h; simp [h]
  · rename_i f h
    rw [lowerCount_lvp]
    simp [h]

theorem find_removeFade (target j : Nat) (s : State) :
    (removeFade target s).lvp.fades.find j = if j = target then none else s.lvp.fades.find j := by
  rw [removeFade_lvp]
  cases h : s.lvp.fades.find target with
  | none =>
    by_cases hj : j = target
    · subst hj; simp [h]
    · simp [hj]
  | some f => simp [Table.find_erase]

theorem level_removeFade (target j : Nat) (s : State) : (removeFade target s).level j = s.level j := by
  simp only [State.level, removeFade_lvp]

/-- The fade table is none of a channel's business, nor of a level's. -/
theorem setLevel_fades (target v : Nat) (s : State) : (setLevel target v s).lvp.fades = s.lvp.fades := by
  have one (c : Nat) (t : State) : (recompute c t).lvp.fades = t.lvp.fades := by
    unfold recompute
    dsimp only
    split
    · rfl
    · exact markChannel_keeps (fun u => u.lvp.fades) (fun _ _ => rfl) _ _
  have all (t : State) : (recomputeAll t).lvp.fades = t.lvp.fades := by
    unfold recomputeAll
    exact foldl_keeps (fun u => u.lvp.fades) _ (fun u c => one c u) _ _
  unfold setLevel
  split
  · rfl
  · dsimp only
    split
    · rw [one]; rfl
    · split
      · rw [all]; rfl
      · rfl

/-- What advancing the fade of a target leaves: its level, and every other level as it was. -/
theorem level_advanceFade (a target j : Nat) (s : State) (h : j ≤ 788) :
    (advanceFade a target s).level j =
      if j = target then
        match s.lvp.fades.find target with
        | none => s.level j
        | some f =>
          if f.duration ≤ f.elapsed + a then f.stop else fadeLevel (s.curve f.curve) f (f.elapsed + a)
      else s.level j := by
  unfold advanceFade
  cases hf : s.lvp.fades.find target with
  | none => simp
  | some f =>
    dsimp only
    split
    · rw [endFade, level_removeFade, level_setLevel _ _ _ _ h]
    · rw [level_setLevel _ _ _ _ h]
      rfl

theorem find_advanceFade (a target j : Nat) (s : State) :
    (advanceFade a target s).lvp.fades.find j =
      if j = target then
        (s.lvp.fades.find target).bind (fun f =>
          if f.duration ≤ f.elapsed + a then none else some { f with elapsed := f.elapsed + a })
      else s.lvp.fades.find j := by
  unfold advanceFade
  cases hf : s.lvp.fades.find target with
  | none =>
    by_cases hj : j = target
    · subst hj; simp [hf]
    · simp [hj]
  | some f =>
    dsimp only
    split
    · rename_i hd
      rw [endFade, find_removeFade, setLevel_fades]
      simp [hd]
    · rename_i hd
      rw [setLevel_fades]
      simp only [State.setLvp_lvp, Table.find_insert, Option.bind_some, if_neg hd]

/-! ## Ports, R161 -/

theorem port_setPort (p o : Port) (x : BusPort) (s : State) : (setPort p x s).port o = if o = p then x else s.port o
    := by
  cases p <;> cases o <;> rfl

theorem fixtures_setPort (p : Port) (x : BusPort) (s : State) : (setPort p x s).fbc.fixtures = s.fbc.fixtures := by
  cases p <;> rfl

theorem mem_insertId (k j : Nat) (l : List Nat) : j ∈ insertId k l ↔ j = k ∨ j ∈ l := by
  induction l with
  | nil => simp [insertId]
  | cons i rest ih =>
    unfold insertId
    split
    · simp
    · split
      · rename_i h; subst h; simp
      · simp only [List.mem_cons, ih]
        tauto

/-- A fixture marked is queued or dirty. -/
theorem BusPort.mark_marked (b : BusPort) (id : Nat) :
    (b.mark id).isQueued id = true ∨ (b.mark id).isDirty id = true := by
  unfold BusPort.mark
  split
  · rename_i h; simpa using h
  · split
    · left; simp [BusPort.isQueued]
    · right; simp [BusPort.isDirty, mem_insertId]

/-- A mark takes no fixture out of the queue or the dirty set. -/
theorem BusPort.mark_keeps (b : BusPort) (id j : Nat) (h : b.isQueued j = true ∨ b.isDirty j = true) :
    (b.mark id).isQueued j = true ∨ (b.mark id).isDirty j = true := by
  unfold BusPort.mark
  split
  · exact h
  · split
    · rcases h with h | h
      · left; simp only [BusPort.isQueued, List.any_append, Bool.or_eq_true] at h ⊢; exact .inl h
      · right; exact h
    · rcases h with h | h
      · left; exact h
      · right
        simp only [BusPort.isDirty, List.contains_iff_mem, mem_insertId] at h ⊢
        exact .inr h

/-- Marking writes the queue and the dirty set alone. -/
theorem BusPort.mark_eq (b : BusPort) (id : Nat) :
    b.mark id = { b with queue := (b.mark id).queue, dirty := (b.mark id).dirty } := by
  unfold BusPort.mark
  split
  · rfl
  · split <;> rfl

/-- Filling writes the queue, the dirty set and the last admitted id alone, and puts entries behind what is queued. -/
theorem BusPort.admit_eq (n : Nat) (b : BusPort) :
    ∃ (ids d : List Nat) (l : Nat), b.admitDirty n = { b with
      queue := b.queue ++ ids.map (fun id => ⟨id, none, false⟩), dirty := d, lastAdmitted := l } ∧
      (∀ j ∈ d, j ∈ b.dirty) ∧ (∀ j ∈ ids, j ∈ b.dirty) ∧ (∀ j ∈ b.dirty, j ∈ ids ∨ j ∈ d) ∧
      (b.queue.length ≤ 32 → b.queue.length + ids.length ≤ 32) := by
  induction n generalizing b with
  | zero => exact ⟨[], b.dirty, b.lastAdmitted, by simp [BusPort.admitDirty], by simp, by simp, by simp, by simp⟩
  | succ n ih =>
    unfold BusPort.admitDirty
    split
    · rename_i hq
      cases hd : nextDirty b.dirty b.lastAdmitted with
      | none => exact ⟨[], b.dirty, b.lastAdmitted, by simp, by simp, by simp, by simp, by simp⟩
      | some id =>
        have hid : id ∈ b.dirty := by
          unfold nextDirty at hd
          cases hf : b.dirty.find? (fun id => decide (b.lastAdmitted < id)) with
          | some k => rw [hf] at hd; cases hd; exact List.mem_of_find?_eq_some hf
          | none => rw [hf] at hd; exact List.mem_of_head? hd
        obtain ⟨ids, d, l, e, h1, h2, h3, h4⟩ := ih
          { b with queue := b.queue ++ [⟨id, none, false⟩], dirty := b.dirty.erase id, lastAdmitted := id }
        refine ⟨id :: ids, d, l, ?_, ?_, ?_, ?_, ?_⟩
        · dsimp only
          rw [e]
          simp
        · intro j hj; exact List.mem_of_mem_erase (h1 j hj)
        · intro j hj
          rcases List.mem_cons.mp hj with rfl | hj
          · exact hid
          · exact List.mem_of_mem_erase (h2 j hj)
        · intro j hj
          by_cases hji : j = id
          · simp [hji]
          · rcases h3 j ((List.mem_erase_of_ne hji).mpr hj) with h | h
            · exact .inl (List.mem_cons_of_mem _ h)
            · exact .inr h
        · intro h
          have := h4 (by simp; omega)
          simp at this ⊢
          omega
    · exact ⟨[], b.dirty, b.lastAdmitted, by simp, by simp, by simp, by simp, by simp⟩

/-! ## Chains, R90 -/

theorem chain_putChain (c d : Nat) (x : Chain) (s : State) (h : d < 8) :
    (putChain c x s).chain d = if d = c then x else s.chain d := at_put_read _ _ _ _ _ h

/-- What entering a chain state leaves in every chain. -/
theorem chain_enterChain (c d : Nat) (new : ChainState) (wall : Option Nat) (s : State) (h : d < 8) :
    (enterChain c new wall s).chain d =
      if d = c then
        { s.chain c with
          state := new, misses := 0, echoes := 0, whole := if new = .idle then false else (s.chain c).whole }
      else s.chain d := by
  unfold enterChain
  dsimp only
  split
  · exact chain_putChain _ _ _ _ h
  · rw [← chain_putChain c d _ s h]
    exact rfl

/-! ## Live capture accesses, R67 -/

/-- What one access carries: a first part of the waiting pixels, no longer than asked for, not empty where some wait,
in which each pixel follows the one before it in the same line of the same buffer. -/
theorem lineRun_spec (width n : Nat) (l : List CapturePixel) :
    lineRun width n l = l.take (lineRun width n l).length ∧ (lineRun width n l).length ≤ n ∧
      (0 < n → l ≠ [] → lineRun width n l ≠ []) ∧
      ∀ (i : Nat) (p q : CapturePixel), (lineRun width n l)[i]? = some p → (lineRun width n l)[i + 1]? = some q →
        q.buffer = p.buffer ∧ q.offset = p.offset + 1 ∧ q.offset % width ≠ 0 := by
  fun_induction lineRun width n l with
  | case1 => simp
  | case2 => simp
  | case3 => simp
  | case4 n p q rest h ih =>
    obtain ⟨ht, hl, hne, hc⟩ := ih
    refine ⟨by simpa using ht, by simpa using hl, by simp, ?_⟩
    rintro (_ | i) a b ha hb
    · have hq : (lineRun width n (q :: rest))[0]? = some b := by simpa using hb
      rw [ht] at hq
      have hb' : some q = some b := by
        cases hk : (lineRun width n (q :: rest)).length with
        | zero => simp [hk] at hq
        | succ k => simpa [hk] using hq
      simp only [List.getElem?_cons_zero, Option.some.injEq] at ha
      cases hb'
      subst ha
      exact h
    · exact hc i a b (by simpa using ha) (by simpa using hb)
  | case5 => simp

end Sys2Proof.Machine
end

