-- ==== Sys2Proof/Laws/Memory.lean ====
section
/-! SUPPORT. The DRAM: a read after a write, and the canonical form, which every memory operation keeps. -/

namespace Sys2Proof.Machine

/-! ## Bytes -/

theorem Memory.read_write (m : Memory) (a j : Nat) (b : Byte) :
    Memory.read (Memory.write m a b) j = if j = a then b else Memory.read m j := by
  unfold Memory.write Memory.read
  split
  · rename_i h
    rw [Table.find_erase]
    split <;> simp_all
  · rw [Table.find_insert]
    split <;> simp_all

theorem Memory.wf_iff (m : Memory) : Memory.wf m = true ↔ Table.wf m = true ∧ ∀ c ∈ m, c.2 ≠ unlisted := by
  simp [Memory.wf]

theorem Memory.wf_write (m : Memory) (a : Nat) (b : Byte) (h : Memory.wf m = true) :
    Memory.wf (Memory.write m a b) = true := by
  rw [Memory.wf_iff] at h ⊢
  unfold Memory.write
  split
  · exact ⟨Table.wf_erase a m h.1, fun c hc => h.2 c (Table.mem_erase a m c hc)⟩
  · rename_i hb
    refine ⟨Table.wf_insert a b m h.1, fun c hc => ?_⟩
    rcases Table.mem_insert a b m c hc with rfl | hc
    · exact hb
    · exact h.2 c hc

/-! ## Words -/

theorem Memory.wf_writeWord (m : Memory) (a : Nat) (w : Word) (h : Memory.wf m = true) :
    Memory.wf (Memory.writeWord m a w) = true := by
  unfold Memory.writeWord
  exact Memory.wf_write _ _ _ (Memory.wf_write _ _ _ (Memory.wf_write _ _ _ (Memory.wf_write _ _ _ h)))

theorem Memory.read_writeWord_other (m : Memory) (a j : Nat) (w : Word) (h : j < a ∨ a + 3 < j) :
    Memory.read (Memory.writeWord m a w) j = Memory.read m j := by
  unfold Memory.writeWord
  simp only [Memory.read_write]
  rw [if_neg (by omega), if_neg (by omega), if_neg (by omega), if_neg (by omega)]

theorem Memory.readWord_writeWord (m : Memory) (a : Nat) (w : Word) :
    Memory.readWord (Memory.writeWord m a w) a = w := by
  unfold Memory.readWord Memory.writeWord
  simp only [Memory.read_write]
  rw [if_neg (by omega), if_neg (by omega), if_neg (by omega), if_pos trivial, if_neg (by omega), if_neg (by omega),
    if_pos trivial, if_neg (by omega), if_pos trivial, if_pos trivial]
  apply BitVec.eq_of_getLsbD_eq
  intro i hi
  simp only [BitVec.getLsbD_append, BitVec.getLsbD_extractLsb']
  have h32 : i < 32 := hi
  by_cases h1 : i < 8
  · simp [h1]
  · by_cases h2 : i - 8 < 8
    · simp [h1, h2]
      rw [show 8 + (i - 8) = i by omega]
    · by_cases h3 : i - 8 - 8 < 8
      · simp [h1, h2, h3]
        rw [show 16 + (i - 8 - 8) = i by omega]
      · simp [h1, h2, h3]
        rw [show 24 + (i - 8 - 8 - 8) = i by omega]
        simp
        omega

/-! ## Pixels -/

theorem Fsc.wf_writePixel (f : Fsc) (r : Region) (b q : Nat) (w : Word) (h : Memory.wf f.mem = true) :
    Memory.wf (f.writePixel r b q w).mem = true := by
  unfold Fsc.writePixel
  split
  · exact Memory.wf_writeWord _ _ _ h
  · exact h

/-- Writing pixels changes nothing of the frame store but its memory, and keeps that canonical. -/
theorem Fsc.foldl_writePixel {β : Type} (g : β → Nat × Nat × Word) (r : Region) (l : List β) (f : Fsc)
    (h : Memory.wf f.mem = true) :
    Memory.wf (l.foldl (fun f p => f.writePixel r (g p).1 (g p).2.1 (g p).2.2) f).mem = true := by
  induction l generalizing f with
  | nil => exact h
  | cons p rest ih => exact ih _ (Fsc.wf_writePixel f r _ _ _ h)

theorem Fsc.wf_writePixels (f : Fsc) (r : Region) (pixels : List (Nat × Word)) (h : Memory.wf f.mem = true) :
    Memory.wf (f.writePixels r pixels).mem = true :=
  Fsc.foldl_writePixel (fun p : Nat × Word => (0, p.1, p.2)) r pixels f h

theorem Fsc.wf_writeCaptured (f : Fsc) (r : Region) (pixels : List CapturePixel) (h : Memory.wf f.mem = true) :
    Memory.wf (f.writeCaptured r pixels).mem = true :=
  Fsc.foldl_writePixel (fun p : CapturePixel => (p.buffer, p.offset, p.word)) r pixels f h

theorem wf_writeCapture (n : Nat) (r : Region) (s : State) (h : Memory.wf s.fsc.mem = true) :
    Memory.wf (writeCapture n r s).fsc.mem = true :=
  Fsc.wf_writeCaptured s.fsc r (lineRun r.width n s.lip.queue) h

theorem wf_abandonAccess (r : ResetIn) (s : State) (h : Memory.wf s.fsc.mem = true) :
    Memory.wf (abandonAccess r s) = true := by
  unfold abandonAccess abandonBurst abandonCapture
  repeat' split
  all_goals first | exact h | exact Fsc.wf_writePixels _ _ _ h | exact Fsc.wf_writeCaptured _ _ _ h

/-- A frame store that differs from another in its memory alone. -/
theorem Fsc.writePixel_eq (f : Fsc) (r : Region) (b q : Nat) (w : Word) :
    ∃ m, f.writePixel r b q w = { f with mem := m } := by
  unfold Fsc.writePixel
  split
  · exact ⟨_, rfl⟩
  · exact ⟨f.mem, rfl⟩

theorem Fsc.writePixels_eq (f : Fsc) (r : Region) (pixels : List (Nat × Word)) :
    ∃ m, f.writePixels r pixels = { f with mem := m } := by
  unfold Fsc.writePixels
  induction pixels generalizing f with
  | nil => exact ⟨f.mem, rfl⟩
  | cons p rest ih =>
    obtain ⟨m, hm⟩ := Fsc.writePixel_eq f r 0 p.1 p.2
    obtain ⟨m', hm'⟩ := ih (f.writePixel r 0 p.1 p.2)
    exact ⟨m', by rw [List.foldl_cons, hm', hm]⟩

end Sys2Proof.Machine
end

