-- ==== Sys2Proof/Laws/Notices.lean ====
section
/-! SUPPORT. What a frame boundary does to the Link Dispatcher: it raises notices, one after the other, and nothing else.
A lemma `f_raises` says so of `f`; one whose operation raises nothing follows from its `f_keeps`. -/

namespace Sys2Proof.Machine

/-- What the Link Dispatcher of `t` holds comes from that of `s` by raising notices. -/
def State.Raises (s t : State) : Prop := ∃ notices : List Notice, t.lkd = notices.foldl Lkd.raise s.lkd

theorem State.Raises.same {s t : State} (h : t.lkd = s.lkd) : s.Raises t := ⟨[], h⟩

theorem State.Raises.one {s t : State} (n : Notice) (h : t.lkd = s.lkd.raise n) : s.Raises t := ⟨[n], h⟩

theorem State.Raises.refl (s : State) : s.Raises s := .same rfl

theorem State.Raises.trans {s t u : State} (h : s.Raises t) (k : t.Raises u) : s.Raises u := by
  obtain ⟨ns, h⟩ := h
  obtain ⟨ms, k⟩ := k
  exact ⟨ns ++ ms, by rw [k, h, List.foldl_append]⟩

theorem State.Raises.after {s t u : State} (h : s.Raises t) (k : u.lkd = t.lkd) : s.Raises u := h.trans (.same k)

theorem State.Raises.before {s t u : State} (k : t.lkd = s.lkd) (h : t.Raises u) : s.Raises u := .trans (.same k) h

theorem State.Raises.foldl {β : Type} (f : State → β → State) (h : ∀ s b, State.Raises s (f s b)) (l : List β)
    (s : State) : s.Raises (l.foldl f s) := by
  induction l generalizing s with
  | nil => exact .refl s
  | cons b rest ih => exact (h s b).trans (ih _)

theorem cphAtBoundary_raises (lines : BitVec 8) (s : State) : s.Raises (cphAtBoundary lines s) := by
  simp only [cphAtBoundary, cameraChange]
  split
  · exact .same rfl
  · exact .one _ rfl

theorem completeCue_raises (a : Active) (s : State) : s.Raises (completeCue a s) := by
  simp only [completeCue]
  split <;> exact .one _ rfl

theorem judge_raises (firing : Option Nat) (s : State) : s.Raises (judge firing s) :=
  .foldl _ (fun t a => completeCue_raises a t) _ s

theorem startFade_lkd (target stop duration curve : Nat) (owner : Owner) (s : State) :
    (startFade target stop duration curve owner s).lkd = s.lkd :=
  startFade_keeps State.lkd (fun _ _ _ => rfl) (fun _ _ _ => rfl) (fun _ _ => rfl) _ _ _ _ _ s

theorem startManual_raises (s : State) : s.Raises (startManual s) := by
  unfold startManual
  exact .before rfl (.foldl _ (fun t m => .before (startFade_lkd _ _ _ _ _ t) (judge_raises none _)) _ _)

theorem effect_lkd (owner : Owner) (a : Action) (s : State) : (a.effect owner s).lkd = s.lkd :=
  Action_effect_keeps State.lkd (fun _ _ => rfl) (fun _ _ _ => rfl) (fun _ _ _ => rfl) (fun _ _ _ => rfl)
    (fun _ _ => rfl) owner a s

theorem runAction_raises (owner : Option Nat) (position : Nat) (fromWait : Bool) (a : Action) (s : State) :
    s.Raises (runAction owner position fromWait a s) := by
  unfold runAction
  split
  · exact .one _ rfl
  · exact .same (effect_lkd _ a s)

theorem makeRoom_raises (n : Nat) (s : State) : s.Raises (makeRoom n s) := by
  unfold makeRoom
  repeat' split
  all_goals first
    | exact .refl s
    | exact .one _ rfl

theorem fireAction_raises (n i : Nat) (a : TimedAction) (f : Firing) :
    f.state.Raises (fireAction n i a f).state := by
  have now := (runAction_raises (some n) i false a.action f.state).trans (judge_raises (some n) _)
  unfold fireAction
  repeat' split
  · exact now
  · exact .same (addWait_keeps State.lkd (fun _ _ => rfl) (fun _ _ _ => rfl) n i a.delay a.action f.state)
  · exact now.after rfl

theorem fireActions_raises (n i : Nat) (l : List TimedAction) (f : Firing) :
    f.state.Raises (fireActions n i l f).state := by
  induction l generalizing i f with
  | nil => exact .refl _
  | cons a rest ih => exact (fireAction_raises n i a f).trans (ih _ _)

theorem fireCue_raises (n : Nat) (source : FireSource) (s : State) : s.Raises (fireCue n source s) := by
  unfold fireCue
  split
  · exact .refl s
  · rename_i c _
    let begun := s.setCue { s.cue with follow := none, recent := some n, standby := nextCue n s.cue.cues }
    let room := makeRoom n begun
    let made := room.setCue { room.cue with active := room.cue.active ++ [⟨n, room.rtu.counter, 0⟩] }
    have h1 : s.Raises room := .before (t := begun) rfl (makeRoom_raises n begun)
    have h2 : s.Raises made := h1.after rfl
    have h3 := fireActions_raises n 1 c.actions ⟨made, 0, 0, 0⟩
    exact (h2.trans h3).trans (.trans (.one _ rfl) (judge_raises none _))

theorem advanceTime_raises (a : Nat) (s : State) : s.Raises (advanceTime a s) := by
  unfold advanceTime
  exact .before (advanceFades_keeps State.lkd (fun _ _ _ => rfl) (fun _ _ _ => rfl) (fun _ _ => rfl) a s)
    (.before rfl (judge_raises none _))

theorem runDue_raises (e : WaitEntry) (s : State) : s.Raises (runDue e s) := by
  unfold runDue
  exact (runAction_raises e.owner e.position true e.action s).trans
    (.before (refDown_keeps State.lkd (fun _ _ => rfl) e.action _)
      (.before (lowerCount_keeps State.lkd (fun _ _ _ => rfl) _ _) (judge_raises none _)))

theorem tallyFire_raises (rises : List Nat) (s : State) : s.Raises (tallyFire rises s) := by
  unfold tallyFire
  repeat' split
  all_goals first
    | exact .refl s
    | exact fireCue_raises _ _ s

theorem chooseFire_raises (ran : Bool) (a : Nat) (rises : List Nat) (s : State) :
    s.Raises (chooseFire ran a rises s) := by
  unfold chooseFire
  dsimp only
  repeat' split
  all_goals first
    | exact .before rfl (fireCue_raises _ _ _)
    | exact .before rfl (tallyFire_raises rises _)

theorem cueAtBoundary_raises (rises : List Nat) (s : State) : s.Raises (cueAtBoundary rises s) := by
  unfold cueAtBoundary
  refine .trans (.trans ?_ (startManual_raises _)) (.trans (.foldl _ (fun t e => runDue_raises e t) _ _)
    (chooseFire_raises _ _ rises _))
  split
  · exact .same rfl
  · exact .before rfl (advanceTime_raises _ _)

theorem enterLive_raises (old new : LiveState) (cause : LiveCause) (s : State) :
    s.Raises (enterLive old new cause s) := .one _ rfl

theorem liveAtBoundary_raises (s : State) : s.Raises (liveAtBoundary s) := by
  unfold liveAtBoundary
  split
  · exact .refl s
  · dsimp only
    split
    · refine .before ?_ (enterLive_raises _ _ _ _)
      exact endInput_keeps State.lkd (fun _ _ => rfl) (s.setLip { s.lip with silence := satAdd 4 s.lip.silence 1 })
    · exact .same rfl

theorem settleShedding_raises (w : Nat) (s : State) : s.Raises (settleShedding w s) := by
  unfold settleShedding
  repeat' split
  all_goals first
    | exact .same rfl
    | exact .one _ rfl

theorem enterChain_raises (c : Nat) (new : ChainState) (wall : Option Nat) (s : State) :
    s.Raises (enterChain c new wall s) := by
  unfold enterChain
  dsimp only
  split
  · exact .same rfl
  · exact .one _ rfl

theorem judgeChain_raises (c : Nat) (s : State) : s.Raises (judgeChain c s) := by
  unfold judgeChain
  dsimp only
  repeat' split
  all_goals first
    | exact .same rfl
    | exact enterChain_raises _ _ _ s

theorem wseAtBoundary_raises (s : State) : s.Raises (wseAtBoundary s) := by
  unfold wseAtBoundary
  let settled := (List.range 4).foldl (fun t w => settleMode w t) s
  have modes : settled.lkd = s.lkd := foldl_keeps State.lkd _ (fun t w =>
    settleMode_keeps State.lkd (fun _ _ => rfl) (fun _ _ => rfl) (fun _ _ _ => rfl) w t) _ s
  have frames := settleFrames_keeps State.lkd (fun _ _ _ => rfl) settled
  have shed := State.Raises.foldl (fun t w => settleShedding w t) (fun t w => settleShedding_raises w t) (List.range 4)
    (settleFrames settled)
  have judged := State.Raises.foldl (fun t c => judgeChain c t) (fun t c => judgeChain_raises c t) (List.range 8)
    ((List.range 4).foldl (fun t w => settleShedding w t) (settleFrames settled))
  exact (shed.before (frames.trans modes)).trans (judged.after (beginSending_keeps State.lkd (fun _ _ _ => rfl) _))

theorem silenceTick_raises (id : Nat) (s : State) : s.Raises (silenceTick id s) := by
  unfold silenceTick enterFixture
  dsimp only
  repeat' split
  all_goals first
    | exact .same rfl
    | exact .one _ rfl

theorem fbcAtBoundary_raises (s : State) : s.Raises (fbcAtBoundary s) :=
  .foldl _ (fun t id => .before (keepAliveTick_keeps State.lkd (fun _ _ => rfl) id t) (silenceTick_raises id _)) _ s

theorem blocksAtBoundary_raises (lines : BitVec 8) (cut : Bool) (s : State) :
    s.Raises (blocksAtBoundary lines cut s) := by
  unfold blocksAtBoundary
  exact (cphAtBoundary_raises lines s).trans ((cueAtBoundary_raises _ _).trans ((liveAtBoundary_raises _).trans
    ((wseAtBoundary_raises _).trans ((fbcAtBoundary_raises _).after
      (douAtBoundary_keeps State.lkd (fun _ _ => rfl) cut _)))))

/-- A boundary raises what the generator raises at it, in the frame that begins, and then notices of the other blocks. -/
theorem takeBoundary_raises (time : Nat) (lines : BitVec 8) (cut : Bool) (gen : State → State) (s : State) :
    ∃ begun : State, begun.lkd = s.lkd ∧ begun.rtu = s.rtu.beginFrame time ∧
      (gen begun).Raises (takeBoundary time lines cut gen s) := by
  refine ⟨_, ?_, ?_, blocksAtBoundary_raises lines cut _⟩
  · exact completeZones_keeps State.lkd (fun _ _ _ => rfl) (fun _ _ _ => rfl) (fun _ _ => rfl) s
  · exact congrArg (Rtu.beginFrame · time)
      (completeZones_keeps State.rtu (fun _ _ _ => rfl) (fun _ _ _ => rfl) (fun _ _ => rfl) s)

end Sys2Proof.Machine
end

