-- ==== Sys2Proof/Laws/PerInstr.lean ====
section
/-! SUPPORT. Statements made command by command. Family RequestBytes: a command that is written as a request is written
with a kind of the catalogue, and with no other. -/

/-- A command that is written as a request is written with a kind of the catalogue. -/
def Sys2Proof.Laws.RequestBytes.Statement (i : Sys2Proof.Instr) : Prop :=
  ∀ (kind : Nat) (tag : Sys2Proof.Byte) (body : List Sys2Proof.Byte),
    Sys2Proof.Machine.requestParts i = some (kind, tag, body) → kind ∈ Sys2Proof.Machine.catalogue

open Sys2Proof Sys2Proof.Machine

/-- The kind alone decides. -/
theorem Sys2Proof.Laws.kind_of_parts (i : Instr) (k : Nat) (t : Byte) (b : List Byte)
    (h : requestParts i = some (k, t, b)) (hk : k ∈ catalogue) : Laws.RequestBytes.Statement i := by
  intro kind tag body h'
  rw [h] at h'
  cases h'
  exact hk

/-- A command that is no request has nothing to show. -/
theorem Sys2Proof.Laws.no_parts (i : Instr) (h : requestParts i = none) : Laws.RequestBytes.Statement i := by
  intro kind tag body h'
  rw [h] at h'
  cases h'

theorem Sys2Proof.Laws.RequestBytes.powerOn (r : ResetIn) : Laws.RequestBytes.Statement (Instr.powerOn r) :=
  Laws.no_parts _ rfl

theorem Sys2Proof.Laws.RequestBytes.resetPin (r : ResetIn) : Laws.RequestBytes.Statement (Instr.resetPin r) :=
  Laws.no_parts _ rfl

theorem Sys2Proof.Laws.RequestBytes.rankSized (o : RankOutcome)
    : Laws.RequestBytes.Statement (Instr.rankSized o) :=
  Laws.no_parts _ rfl

theorem Sys2Proof.Laws.RequestBytes.controlLinkFrame (time : Nat) (tally : BitVec 8) (chars : List LineChar)
    : Laws.RequestBytes.Statement (Instr.controlLinkFrame time tally chars) :=
  Laws.no_parts _ rfl

theorem Sys2Proof.Laws.RequestBytes.unknownKind (tag kind : Byte)
    : Laws.RequestBytes.Statement (Instr.unknownKind tag kind) :=
  Laws.no_parts _ rfl

theorem Sys2Proof.Laws.RequestBytes.transmitFrame : Laws.RequestBytes.Statement (Instr.transmitFrame) :=
  Laws.no_parts _ rfl

theorem Sys2Proof.Laws.RequestBytes.identify (tag : Byte)
    : Laws.RequestBytes.Statement (Instr.identify tag) :=
  Laws.kind_of_parts _ _ _ _ rfl (by decide)

theorem Sys2Proof.Laws.RequestBytes.readStatus (tag : Byte)
    : Laws.RequestBytes.Statement (Instr.readStatus tag) :=
  Laws.kind_of_parts _ _ _ _ rfl (by decide)

theorem Sys2Proof.Laws.RequestBytes.clearFlags (tag : Byte) (r : ClearFlagsReq)
    : Laws.RequestBytes.Statement (Instr.clearFlags tag r) :=
  Laws.kind_of_parts _ _ _ _ rfl (by decide)

theorem Sys2Proof.Laws.RequestBytes.setNoticeMask (tag : Byte) (mask : Nat)
    : Laws.RequestBytes.Statement (Instr.setNoticeMask tag mask) :=
  Laws.kind_of_parts _ _ _ _ rfl (by decide)

theorem Sys2Proof.Laws.RequestBytes.reset (tag : Byte) (scope : Nat)
    : Laws.RequestBytes.Statement (Instr.reset tag scope) :=
  Laws.kind_of_parts _ _ _ _ rfl (by decide)

theorem Sys2Proof.Laws.RequestBytes.linkReset : Laws.RequestBytes.Statement (Instr.linkReset) :=
  Laws.no_parts _ rfl

theorem Sys2Proof.Laws.RequestBytes.fullReset (r : ResetIn)
    : Laws.RequestBytes.Statement (Instr.fullReset r) :=
  Laws.no_parts _ rfl

theorem Sys2Proof.Laws.RequestBytes.setReference (tag : Byte) (r : SetReferenceReq)
    : Laws.RequestBytes.Statement (Instr.setReference tag r) :=
  Laws.kind_of_parts _ _ _ _ rfl (by decide)

theorem Sys2Proof.Laws.RequestBytes.readTiming (tag : Byte)
    : Laws.RequestBytes.Statement (Instr.readTiming tag) :=
  Laws.kind_of_parts _ _ _ _ rfl (by decide)

theorem Sys2Proof.Laws.RequestBytes.framePulse (p : FramePulse)
    : Laws.RequestBytes.Statement (Instr.framePulse p) :=
  Laws.no_parts _ rfl

theorem Sys2Proof.Laws.RequestBytes.linePulse (time : Nat)
    : Laws.RequestBytes.Statement (Instr.linePulse time) :=
  Laws.no_parts _ rfl

theorem Sys2Proof.Laws.RequestBytes.lateLimit (tally : BitVec 8)
    : Laws.RequestBytes.Statement (Instr.lateLimit tally) :=
  Laws.no_parts _ rfl

theorem Sys2Proof.Laws.RequestBytes.acquisitionAbandoned (tally : BitVec 8)
    : Laws.RequestBytes.Statement (Instr.acquisitionAbandoned tally) :=
  Laws.no_parts _ rfl

theorem Sys2Proof.Laws.RequestBytes.holdoverExpired (tally : BitVec 8)
    : Laws.RequestBytes.Statement (Instr.holdoverExpired tally) :=
  Laws.no_parts _ rfl

theorem Sys2Proof.Laws.RequestBytes.frameBoundary (tally : BitVec 8)
    : Laws.RequestBytes.Statement (Instr.frameBoundary tally) :=
  Laws.no_parts _ rfl

theorem Sys2Proof.Laws.RequestBytes.waitEntryDue (tally : BitVec 8)
    : Laws.RequestBytes.Statement (Instr.waitEntryDue tally) :=
  Laws.no_parts _ rfl

theorem Sys2Proof.Laws.RequestBytes.followExpiry (tally : BitVec 8)
    : Laws.RequestBytes.Statement (Instr.followExpiry tally) :=
  Laws.no_parts _ rfl

theorem Sys2Proof.Laws.RequestBytes.fadeEnd (target : Nat) (tally : BitVec 8)
    : Laws.RequestBytes.Statement (Instr.fadeEnd target tally) :=
  Laws.no_parts _ rfl

theorem Sys2Proof.Laws.RequestBytes.latchInstant (wall k : Nat)
    : Laws.RequestBytes.Statement (Instr.latchInstant wall k) :=
  Laws.no_parts _ rfl

theorem Sys2Proof.Laws.RequestBytes.chainEcho (chain word : Nat)
    : Laws.RequestBytes.Statement (Instr.chainEcho chain word) :=
  Laws.no_parts _ rfl

theorem Sys2Proof.Laws.RequestBytes.zoneComplete (zone : Nat)
    : Laws.RequestBytes.Statement (Instr.zoneComplete zone) :=
  Laws.no_parts _ rfl

theorem Sys2Proof.Laws.RequestBytes.dramAccessGrant (asks : Asks)
    : Laws.RequestBytes.Statement (Instr.dramAccessGrant asks) :=
  Laws.no_parts _ rfl

theorem Sys2Proof.Laws.RequestBytes.burstGrant (asks : Asks)
    : Laws.RequestBytes.Statement (Instr.burstGrant asks) :=
  Laws.no_parts _ rfl

theorem Sys2Proof.Laws.RequestBytes.waitingRequestAccept
    : Laws.RequestBytes.Statement (Instr.waitingRequestAccept) :=
  Laws.no_parts _ rfl

theorem Sys2Proof.Laws.RequestBytes.regionRemoval : Laws.RequestBytes.Statement (Instr.regionRemoval) :=
  Laws.no_parts _ rfl

theorem Sys2Proof.Laws.RequestBytes.readProceeds : Laws.RequestBytes.Statement (Instr.readProceeds) :=
  Laws.no_parts _ rfl

theorem Sys2Proof.Laws.RequestBytes.contentReadGrant (asks : Asks)
    : Laws.RequestBytes.Statement (Instr.contentReadGrant asks) :=
  Laws.no_parts _ rfl

theorem Sys2Proof.Laws.RequestBytes.inputFrameStart : Laws.RequestBytes.Statement (Instr.inputFrameStart) :=
  Laws.no_parts _ rfl

theorem Sys2Proof.Laws.RequestBytes.lineStrobe : Laws.RequestBytes.Statement (Instr.lineStrobe) :=
  Laws.no_parts _ rfl

theorem Sys2Proof.Laws.RequestBytes.inputFrameComplete
    : Laws.RequestBytes.Statement (Instr.inputFrameComplete) :=
  Laws.no_parts _ rfl

theorem Sys2Proof.Laws.RequestBytes.feedLost (tally : BitVec 8)
    : Laws.RequestBytes.Statement (Instr.feedLost tally) :=
  Laws.no_parts _ rfl

theorem Sys2Proof.Laws.RequestBytes.setCamera (tag : Byte) (r : SetCameraReq)
    : Laws.RequestBytes.Statement (Instr.setCamera tag r) :=
  Laws.kind_of_parts _ _ _ _ rfl (by decide)

theorem Sys2Proof.Laws.RequestBytes.setIdlePhase (tag : Byte) (phase : Nat)
    : Laws.RequestBytes.Statement (Instr.setIdlePhase tag phase) :=
  Laws.kind_of_parts _ _ _ _ rfl (by decide)

theorem Sys2Proof.Laws.RequestBytes.setSlew (tag : Byte) (limit : Nat)
    : Laws.RequestBytes.Statement (Instr.setSlew tag limit) :=
  Laws.kind_of_parts _ _ _ _ rfl (by decide)

theorem Sys2Proof.Laws.RequestBytes.tally (tag : Byte) (camera state : Nat)
    : Laws.RequestBytes.Statement (Instr.tally tag camera state) :=
  Laws.kind_of_parts _ _ _ _ rfl (by decide)

theorem Sys2Proof.Laws.RequestBytes.readPhase (r : ReadPhaseReq)
    : Laws.RequestBytes.Statement (Instr.readPhase r) :=
  match r with
  | ⟨_, none⟩ => Laws.kind_of_parts _ _ _ _ rfl (by decide)
  | ⟨_, some _⟩ => Laws.no_parts _ rfl

theorem Sys2Proof.Laws.RequestBytes.defineRegion (tag : Byte) (r : DefineRegionReq)
    : Laws.RequestBytes.Statement (Instr.defineRegion tag r) :=
  Laws.kind_of_parts _ _ _ _ rfl (by decide)

theorem Sys2Proof.Laws.RequestBytes.deleteRegion (tag : Byte) (id : Nat)
    : Laws.RequestBytes.Statement (Instr.deleteRegion tag id) :=
  Laws.kind_of_parts _ _ _ _ rfl (by decide)

theorem Sys2Proof.Laws.RequestBytes.readRegion (tag : Byte) (id : Nat)
    : Laws.RequestBytes.Statement (Instr.readRegion tag id) :=
  Laws.kind_of_parts _ _ _ _ rfl (by decide)

theorem Sys2Proof.Laws.RequestBytes.readMemory (tag : Byte)
    : Laws.RequestBytes.Statement (Instr.readMemory tag) :=
  Laws.kind_of_parts _ _ _ _ rfl (by decide)

theorem Sys2Proof.Laws.RequestBytes.setShowLock (tag : Byte)
    : Laws.RequestBytes.Statement (Instr.setShowLock tag) :=
  Laws.kind_of_parts _ _ _ _ rfl (by decide)

theorem Sys2Proof.Laws.RequestBytes.writeContent (tag : Byte) (r : WriteContentReq)
    : Laws.RequestBytes.Statement (Instr.writeContent tag r) :=
  Laws.kind_of_parts _ _ _ _ rfl (by decide)

theorem Sys2Proof.Laws.RequestBytes.fillRegion (tag : Byte) (r : FillRegionReq)
    : Laws.RequestBytes.Statement (Instr.fillRegion tag r) :=
  Laws.kind_of_parts _ _ _ _ rfl (by decide)

theorem Sys2Proof.Laws.RequestBytes.readContent (tag : Byte) (r : ReadContentReq)
    : Laws.RequestBytes.Statement (Instr.readContent tag r) :=
  Laws.kind_of_parts _ _ _ _ rfl (by decide)

theorem Sys2Proof.Laws.RequestBytes.readPosting (tag : Byte)
    : Laws.RequestBytes.Statement (Instr.readPosting tag) :=
  Laws.kind_of_parts _ _ _ _ rfl (by decide)

theorem Sys2Proof.Laws.RequestBytes.setLiveInput (tag : Byte) (region : Option Nat)
    : Laws.RequestBytes.Statement (Instr.setLiveInput tag region) :=
  Laws.kind_of_parts _ _ _ _ rfl (by decide)

theorem Sys2Proof.Laws.RequestBytes.readLive (tag : Byte)
    : Laws.RequestBytes.Statement (Instr.readLive tag) :=
  Laws.kind_of_parts _ _ _ _ rfl (by decide)

theorem Sys2Proof.Laws.RequestBytes.defineWall (tag : Byte) (r : DefineWallReq)
    : Laws.RequestBytes.Statement (Instr.defineWall tag r) :=
  Laws.kind_of_parts _ _ _ _ rfl (by decide)

theorem Sys2Proof.Laws.RequestBytes.deleteWall (tag : Byte) (wall : Nat)
    : Laws.RequestBytes.Statement (Instr.deleteWall tag wall) :=
  Laws.kind_of_parts _ _ _ _ rfl (by decide)

theorem Sys2Proof.Laws.RequestBytes.setLayer (tag : Byte) (r : SetLayerReq)
    : Laws.RequestBytes.Statement (Instr.setLayer tag r) :=
  Laws.kind_of_parts _ _ _ _ rfl (by decide)

theorem Sys2Proof.Laws.RequestBytes.setWallMode (tag : Byte) (r : SetWallModeReq)
    : Laws.RequestBytes.Statement (Instr.setWallMode tag r) :=
  Laws.kind_of_parts _ _ _ _ rfl (by decide)

theorem Sys2Proof.Laws.RequestBytes.setTile (tag : Byte) (r : SetTileReq)
    : Laws.RequestBytes.Statement (Instr.setTile tag r) :=
  Laws.kind_of_parts _ _ _ _ rfl (by decide)

theorem Sys2Proof.Laws.RequestBytes.removeTile (tag : Byte) (tile : Nat)
    : Laws.RequestBytes.Statement (Instr.removeTile tag tile) :=
  Laws.kind_of_parts _ _ _ _ rfl (by decide)

theorem Sys2Proof.Laws.RequestBytes.setCorrection (tag : Byte) (r : SetCorrectionReq)
    : Laws.RequestBytes.Statement (Instr.setCorrection tag r) :=
  Laws.kind_of_parts _ _ _ _ rfl (by decide)

theorem Sys2Proof.Laws.RequestBytes.defineZone (tag : Byte) (r : DefineZoneReq)
    : Laws.RequestBytes.Statement (Instr.defineZone tag r) :=
  Laws.kind_of_parts _ _ _ _ rfl (by decide)

theorem Sys2Proof.Laws.RequestBytes.readWall (tag : Byte) (wall : Nat)
    : Laws.RequestBytes.Statement (Instr.readWall tag wall) :=
  Laws.kind_of_parts _ _ _ _ rfl (by decide)

theorem Sys2Proof.Laws.RequestBytes.readZone (tag : Byte) (zone : Nat)
    : Laws.RequestBytes.Statement (Instr.readZone tag zone) :=
  Laws.kind_of_parts _ _ _ _ rfl (by decide)

theorem Sys2Proof.Laws.RequestBytes.storeCue (tag : Byte) (r : StoreCueReq)
    : Laws.RequestBytes.Statement (Instr.storeCue tag r) :=
  Laws.kind_of_parts _ _ _ _ rfl (by decide)

theorem Sys2Proof.Laws.RequestBytes.deleteCue (tag : Byte) (cue : Nat)
    : Laws.RequestBytes.Statement (Instr.deleteCue tag cue) :=
  Laws.kind_of_parts _ _ _ _ rfl (by decide)

theorem Sys2Proof.Laws.RequestBytes.standby (tag : Byte) (cue : Nat)
    : Laws.RequestBytes.Statement (Instr.standby tag cue) :=
  Laws.kind_of_parts _ _ _ _ rfl (by decide)

theorem Sys2Proof.Laws.RequestBytes.go (tag : Byte) : Laws.RequestBytes.Statement (Instr.go tag) :=
  Laws.kind_of_parts _ _ _ _ rfl (by decide)

theorem Sys2Proof.Laws.RequestBytes.goCue (tag : Byte) (cue : Nat)
    : Laws.RequestBytes.Statement (Instr.goCue tag cue) :=
  Laws.kind_of_parts _ _ _ _ rfl (by decide)

theorem Sys2Proof.Laws.RequestBytes.cancelGo (tag : Byte)
    : Laws.RequestBytes.Statement (Instr.cancelGo tag) :=
  Laws.kind_of_parts _ _ _ _ rfl (by decide)

theorem Sys2Proof.Laws.RequestBytes.hold (tag : Byte) : Laws.RequestBytes.Statement (Instr.hold tag) :=
  Laws.kind_of_parts _ _ _ _ rfl (by decide)

theorem Sys2Proof.Laws.RequestBytes.release (tag : Byte) : Laws.RequestBytes.Statement (Instr.release tag) :=
  Laws.kind_of_parts _ _ _ _ rfl (by decide)

theorem Sys2Proof.Laws.RequestBytes.stepFrames (tag : Byte) (n : Nat)
    : Laws.RequestBytes.Statement (Instr.stepFrames tag n) :=
  Laws.kind_of_parts _ _ _ _ rfl (by decide)

theorem Sys2Proof.Laws.RequestBytes.readCue (tag : Byte) (cue search : Nat)
    : Laws.RequestBytes.Statement (Instr.readCue tag cue search) :=
  Laws.kind_of_parts _ _ _ _ rfl (by decide)

theorem Sys2Proof.Laws.RequestBytes.readCueState (tag : Byte)
    : Laws.RequestBytes.Statement (Instr.readCueState tag) :=
  Laws.kind_of_parts _ _ _ _ rfl (by decide)

theorem Sys2Proof.Laws.RequestBytes.setCurve (tag : Byte) (curve : Nat) (points : List Nat)
    : Laws.RequestBytes.Statement (Instr.setCurve tag curve points) :=
  Laws.kind_of_parts _ _ _ _ rfl (by decide)

theorem Sys2Proof.Laws.RequestBytes.fade (tag : Byte) (r : FadeReq)
    : Laws.RequestBytes.Statement (Instr.fade tag r) :=
  Laws.kind_of_parts _ _ _ _ rfl (by decide)

theorem Sys2Proof.Laws.RequestBytes.setChannel (tag : Byte) (r : SetChannelReq)
    : Laws.RequestBytes.Statement (Instr.setChannel tag r) :=
  Laws.kind_of_parts _ _ _ _ rfl (by decide)

theorem Sys2Proof.Laws.RequestBytes.readLevels (tag : Byte) (r : ReadLevelsReq)
    : Laws.RequestBytes.Statement (Instr.readLevels tag r) :=
  Laws.kind_of_parts _ _ _ _ rfl (by decide)

theorem Sys2Proof.Laws.RequestBytes.setBus (tag : Byte) (r : SetBusReq)
    : Laws.RequestBytes.Statement (Instr.setBus tag r) :=
  Laws.kind_of_parts _ _ _ _ rfl (by decide)

theorem Sys2Proof.Laws.RequestBytes.setFilter (tag : Byte) (r : SetFilterReq)
    : Laws.RequestBytes.Statement (Instr.setFilter tag r) :=
  Laws.kind_of_parts _ _ _ _ rfl (by decide)

theorem Sys2Proof.Laws.RequestBytes.defineFixture (tag : Byte) (r : DefineFixtureReq)
    : Laws.RequestBytes.Statement (Instr.defineFixture tag r) :=
  Laws.kind_of_parts _ _ _ _ rfl (by decide)

theorem Sys2Proof.Laws.RequestBytes.deleteFixture (tag : Byte) (id : Nat)
    : Laws.RequestBytes.Statement (Instr.deleteFixture tag id) :=
  Laws.kind_of_parts _ _ _ _ rfl (by decide)

theorem Sys2Proof.Laws.RequestBytes.readBus (tag : Byte) (port : Nat)
    : Laws.RequestBytes.Statement (Instr.readBus tag port) :=
  Laws.kind_of_parts _ _ _ _ rfl (by decide)

theorem Sys2Proof.Laws.RequestBytes.readFixture (tag : Byte) (id : Nat) (search : Option Nat)
    : Laws.RequestBytes.Statement (Instr.readFixture tag id search) :=
  Laws.kind_of_parts _ _ _ _ rfl (by decide)

theorem Sys2Proof.Laws.RequestBytes.setDimmer (tag : Byte) (r : SetDimmerReq)
    : Laws.RequestBytes.Statement (Instr.setDimmer tag r) :=
  Laws.kind_of_parts _ _ _ _ rfl (by decide)

theorem Sys2Proof.Laws.RequestBytes.readDimmer (tag : Byte) (output : Option Nat)
    : Laws.RequestBytes.Statement (Instr.readDimmer tag output) :=
  Laws.kind_of_parts _ _ _ _ rfl (by decide)

theorem Sys2Proof.Laws.RequestBytes.portJoined (p : Port)
    : Laws.RequestBytes.Statement (Instr.portJoined p) :=
  Laws.no_parts _ rfl

theorem Sys2Proof.Laws.RequestBytes.portRecovered (p : Port)
    : Laws.RequestBytes.Statement (Instr.portRecovered p) :=
  Laws.no_parts _ rfl

theorem Sys2Proof.Laws.RequestBytes.sendStart (p : Port) (idleBits : Nat)
    : Laws.RequestBytes.Statement (Instr.sendStart p idleBits) :=
  Laws.no_parts _ rfl

theorem Sys2Proof.Laws.RequestBytes.lostArbitration (p : Port)
    : Laws.RequestBytes.Statement (Instr.lostArbitration p) :=
  Laws.no_parts _ rfl

theorem Sys2Proof.Laws.RequestBytes.sendSuccess (p : Port)
    : Laws.RequestBytes.Statement (Instr.sendSuccess p) :=
  Laws.no_parts _ rfl

theorem Sys2Proof.Laws.RequestBytes.validReception (p : Port) (r : BusReception)
    : Laws.RequestBytes.Statement (Instr.validReception p r) :=
  Laws.no_parts _ rfl

theorem Sys2Proof.Laws.RequestBytes.busError (p : Port) (e : BusFault)
    : Laws.RequestBytes.Statement (Instr.busError p e) :=
  Laws.no_parts _ rfl

theorem Sys2Proof.Laws.RequestBytes.keepAliveExpiry (fixture : Nat) (tally : BitVec 8)
    : Laws.RequestBytes.Statement (Instr.keepAliveExpiry fixture tally) :=
  Laws.no_parts _ rfl

theorem Sys2Proof.Laws.RequestBytes.silenceLimit (fixture : Nat) (tally : BitVec 8)
    : Laws.RequestBytes.Statement (Instr.silenceLimit fixture tally) :=
  Laws.no_parts _ rfl

theorem Sys2Proof.Laws.RequestBytes.dimmerPeriodStart (output j : Nat)
    : Laws.RequestBytes.Statement (Instr.dimmerPeriodStart output j) :=
  Laws.no_parts _ rfl

theorem Sys2Proof.Laws.RequestBytes.dimmerPulseEnd (output : Nat)
    : Laws.RequestBytes.Statement (Instr.dimmerPulseEnd output) :=
  Laws.no_parts _ rfl

theorem Sys2Proof.Laws.RequestBytes.inputPixel (r g b : BitVec 10)
    : Laws.RequestBytes.Statement (Instr.inputPixel r g b) :=
  Laws.no_parts _ rfl

theorem Sys2Proof.Laws.RequestBytes.quietPeriod (p : Port)
    : Laws.RequestBytes.Statement (Instr.quietPeriod p) :=
  Laws.no_parts _ rfl
end

