-- ==== Sys2Proof/Tests/Slice0.lean ====
section
/-! SUPPORT. Own tests: ill-formed commands that WellFormed refuses, worked figures of the manual (the expected values
are the manual's, each test names where they stand), single steps, and for each statement with hypotheses a state and
operands that meet them. -/

namespace Sys2Proof.Tests

open Sys2Proof Sys2Proof.Machine

/-! ## Well-formed commands: one ill-formed term for each check -/

theorem test_wf_link : ([.unknownKind 0 0x01, .unknownKind 0 0x7F, .clearFlags 0 ⟨256, 0, 0, 0, 0⟩,
    .powerOn ⟨0, 0, 0, some 0⟩, .fullReset ⟨0, 0, 0, some 0⟩, .clearFlags 0 ⟨0, 256, 0, 0, 0⟩, .clearFlags 0 ⟨0, 0, 256, 0, 0⟩, .clearFlags 0 ⟨0, 0, 0, 65536, 0⟩,
    .clearFlags 0 ⟨0, 0, 0, 0, 65536⟩, .setNoticeMask 0 256, .reset 0 256] : List Instr).all (fun i => !i.wf) = true
      := by
  decide

theorem test_wf_timing : ([.setReference 0 ⟨some 256, none, none, none, none⟩,
    .setReference 0 ⟨none, some 256, none, none, none⟩, .setReference 0 ⟨none, none, some 256, none, none⟩,
    .setReference 0 ⟨none, none, none, some 256, none⟩, .setReference 0 ⟨none, none, none, none, some 65536⟩,
    .fadeEnd 789 0, .latchInstant 4 0, .latchInstant 0 8, .chainEcho 8 0, .zoneComplete 8, .keepAliveExpiry 192 0,
    .silenceLimit 192 0, .dimmerPeriodStart 16 0, .dimmerPeriodStart 0 64, .dimmerPulseEnd 16] : List Instr).all
      (fun i => !i.wf) = true := by
  decide

theorem test_wf_phase : ([.setCamera 0 ⟨256, none, none, none, none⟩, .setCamera 0 ⟨0, some 65536, none, none, none⟩,
    .setCamera 0 ⟨0, none, some 256, none, none⟩, .setCamera 0 ⟨0, none, none, some 256, none⟩,
    .setCamera 0 ⟨0, none, none, none, some 256⟩, .setIdlePhase 0 65536, .setSlew 0 65536, .tally 0 256 0,
    .tally 0 0 256] : List Instr).all (fun i => !i.wf) = true := by
  decide

theorem test_wf_store : ([.rankSized (.passed 48), .rankSized (.patternFault 48 0), .rankSized (.patternFault 32 8192),
    .dramAccessGrant ⟨some (4, 1), 0⟩, .burstGrant ⟨some (4, 1), 0⟩, .contentReadGrant ⟨some (4, 1), 0⟩,
    .defineRegion 0 ⟨256, 0, 0, 16, 16, none⟩, .defineRegion 0 ⟨0, 256, 0, 16, 16, none⟩,
    .defineRegion 0 ⟨0, 0, 4294967296, 16, 16, none⟩, .defineRegion 0 ⟨0, 0, 0, 65536, 16, none⟩,
    .defineRegion 0 ⟨0, 0, 0, 16, 65536, none⟩, .defineRegion 0 ⟨0, 0, 0, 16, 16, some 256⟩, .deleteRegion 0 256,
    .readRegion 0 256] : List Instr).all (fun i => !i.wf) = true := by
  decide

theorem test_wf_content : ([.writeContent 0 ⟨256, 0, [0]⟩, .writeContent 0 ⟨0, 16777216, [0]⟩,
    .writeContent 0 ⟨0, 0, List.replicate 256 0⟩, .fillRegion 0 ⟨256, ⟨0, 0, 1, 1⟩, ⟨0, 0, 0⟩⟩,
    .fillRegion 0 ⟨0, ⟨65536, 0, 1, 1⟩, ⟨0, 0, 0⟩⟩, .fillRegion 0 ⟨0, ⟨0, 65536, 1, 1⟩, ⟨0, 0, 0⟩⟩,
    .fillRegion 0 ⟨0, ⟨0, 0, 65536, 1⟩, ⟨0, 0, 0⟩⟩, .fillRegion 0 ⟨0, ⟨0, 0, 1, 65536⟩, ⟨0, 0, 0⟩⟩,
    .fillRegion 0 ⟨0, ⟨0, 0, 1, 1⟩, ⟨65536, 0, 0⟩⟩, .fillRegion 0 ⟨0, ⟨0, 0, 1, 1⟩, ⟨0, 65536, 0⟩⟩,
    .fillRegion 0 ⟨0, ⟨0, 0, 1, 1⟩, ⟨0, 0, 65536⟩⟩, .readContent 0 ⟨256, 0, 1⟩, .readContent 0 ⟨0, 16777216, 1⟩,
    .readContent 0 ⟨0, 0, 256⟩, .setLiveInput 0 (some 255)] : List Instr).all (fun i => !i.wf) = true := by
  decide +kernel

theorem test_wf_walls : ([.defineWall 0 ⟨256, 16, 16, 1, ⟨0, 0, 0⟩⟩, .defineWall 0 ⟨0, 65536, 16, 1, ⟨0, 0, 0⟩⟩,
    .defineWall 0 ⟨0, 16, 65536, 1, ⟨0, 0, 0⟩⟩, .defineWall 0 ⟨0, 16, 16, 256, ⟨0, 0, 0⟩⟩,
    .defineWall 0 ⟨0, 16, 16, 1, ⟨65536, 0, 0⟩⟩, .deleteWall 0 256, .setLayer 0 ⟨256, 1, none, ⟨0, 0, 1, 1⟩, 0, 0⟩,
    .setLayer 0 ⟨0, 256, none, ⟨0, 0, 1, 1⟩, 0, 0⟩, .setLayer 0 ⟨0, 1, some 255, ⟨0, 0, 1, 1⟩, 0, 0⟩,
    .setLayer 0 ⟨0, 1, none, ⟨65536, 0, 1, 1⟩, 0, 0⟩, .setLayer 0 ⟨0, 1, none, ⟨0, 0, 1, 1⟩, -32769, 0⟩,
    .setLayer 0 ⟨0, 1, none, ⟨0, 0, 1, 1⟩, 0, 32768⟩, .setWallMode 0 ⟨256, 0, 0, ⟨0, 0, 0⟩⟩,
    .setWallMode 0 ⟨0, 256, 0, ⟨0, 0, 0⟩⟩, .setWallMode 0 ⟨0, 0, 256, ⟨0, 0, 0⟩⟩,
    .setWallMode 0 ⟨0, 0, 0, ⟨0, 0, 65536⟩⟩, .readWall 0 256] : List Instr).all (fun i => !i.wf) = true := by
  decide

theorem test_wf_tiles : ([.setTile 0 ⟨256, 0, 0, 0, ⟨0, 0, 16, 16⟩, 0⟩, .setTile 0 ⟨0, 256, 0, 0, ⟨0, 0, 16, 16⟩, 0⟩,
    .setTile 0 ⟨0, 0, 256, 0, ⟨0, 0, 16, 16⟩, 0⟩, .setTile 0 ⟨0, 0, 0, 256, ⟨0, 0, 16, 16⟩, 0⟩,
    .setTile 0 ⟨0, 0, 0, 0, ⟨0, 0, 65536, 16⟩, 0⟩, .setTile 0 ⟨0, 0, 0, 0, ⟨0, 0, 16, 16⟩, 256⟩, .removeTile 0 256,
    .setCorrection 0 ⟨256, none, none, none, none, none⟩, .setCorrection 0 ⟨0, some 65536, none, none, none, none⟩,
    .setCorrection 0 ⟨0, none, some 65536, none, none, none⟩, .setCorrection 0 ⟨0, none, none, some 65536, none, none⟩,
    .setCorrection 0 ⟨0, none, none, none, some 65536, none⟩, .setCorrection 0 ⟨0, none, none, none, none, some 65536⟩,
    .defineZone 0 ⟨256, none, ⟨0, 0, 1, 1⟩⟩, .defineZone 0 ⟨0, some 255, ⟨0, 0, 1, 1⟩⟩,
    .defineZone 0 ⟨0, none, ⟨0, 0, 65536, 1⟩⟩, .readZone 0 256] : List Instr).all (fun i => !i.wf) = true := by
  decide

/-- A cue whose one action is `a`. -/
def cueWith (a : RawAction) : Instr := .storeCue 0 ⟨1, 0, 0, [⟨0, a⟩]⟩

theorem test_wf_cues : ([.storeCue 0 ⟨65536, 0, 0, []⟩, .storeCue 0 ⟨1, 256, 0, []⟩, .storeCue 0 ⟨1, 0, 65536, []⟩,
    .storeCue 0 ⟨1, 0, 0, List.replicate 256 ⟨0, .masterFade 0 0 0⟩⟩, .storeCue 0 ⟨1, 0, 0, [⟨65536, .masterFade 0 0
      0⟩]⟩,
    .storeCue 0 ⟨1, 0, 0, [⟨0, .unknown 6⟩, ⟨0, .masterFade 0 0 0⟩]⟩, .deleteCue 0 65536, .standby 0 65536,
    .goCue 0 65536, .stepFrames 0 65536, .readCue 0 65536 0, .readCue 0 0 256] : List Instr).all
      (fun i => !i.wf) = true := by
  decide +kernel

theorem test_wf_actions : ([.layerSource 65536 1 none ⟨0, 0, 1, 1⟩ 0 0, .layerSource 0 65536 none ⟨0, 0, 1, 1⟩ 0 0,
    .layerSource 0 1 (some 65535) ⟨0, 0, 1, 1⟩ 0 0, .layerSource 0 1 none ⟨0, 0, 65536, 1⟩ 0 0,
    .layerSource 0 1 none ⟨0, 0, 1, 1⟩ 32768 0, .layerSource 0 1 none ⟨0, 0, 1, 1⟩ 0 (-32769),
    .layerFade 65536 1 0 0 0, .layerFade 0 65536 0 0 0, .layerFade 0 1 65536 0 0, .layerFade 0 1 0 65536 0,
    .layerFade 0 1 0 0 65536, .wallFade 65536 0 0 0, .wallFade 0 65536 0 0, .wallFade 0 0 65536 0,
    .wallFade 0 0 0 65536, .levelFade 65536 1 0 0 0, .levelFade 0 65536 0 0 0, .levelFade 0 1 65536 0 0,
    .levelFade 0 1 0 65536 0, .levelFade 0 1 0 0 65536, .masterFade 65536 0 0, .masterFade 0 65536 0,
    .masterFade 0 0 65536, .wallMode 65536 0 0 ⟨0, 0, 0⟩, .wallMode 0 65536 0 ⟨0, 0, 0⟩, .wallMode 0 0 65536 ⟨0, 0, 0⟩,
    .wallMode 0 0 0 ⟨65536, 0, 0⟩, .unknown 5, .unknown 256] : List RawAction).all (fun a => !(cueWith a).wf) = true
      := by
  decide

theorem test_wf_levels : ([.setCurve 0 256 (List.replicate 15 0), .setCurve 0 1 (List.replicate 14 0),
    .setCurve 0 1 (List.replicate 15 65536), .fade 0 ⟨65536, 0, 0, 0⟩, .fade 0 ⟨0, 65536, 0, 0⟩,
    .fade 0 ⟨0, 0, 65536, 0⟩, .fade 0 ⟨0, 0, 0, 256⟩, .setChannel 0 ⟨65536, 1, 0, 0, 0, 0, 1⟩,
    .setChannel 0 ⟨0, 256, 0, 0, 0, 0, 1⟩, .setChannel 0 ⟨0, 1, 256, 0, 0, 0, 1⟩, .setChannel 0 ⟨0, 1, 0, 256, 0, 0, 1⟩,
    .setChannel 0 ⟨0, 1, 0, 0, 256, 0, 1⟩, .setChannel 0 ⟨0, 1, 0, 0, 0, 65536, 1⟩,
    .setChannel 0 ⟨0, 1, 0, 0, 0, 0, 65536⟩, .readLevels 0 ⟨256, 0, 1⟩, .readLevels 0 ⟨0, 65536, 1⟩,
    .readLevels 0 ⟨0, 0, 256⟩] : List Instr).all (fun i => !i.wf) = true := by
  decide

theorem test_wf_lights : ([.setBus 0 ⟨256, 0, none⟩, .setBus 0 ⟨0, 256, none⟩, .setBus 0 ⟨0, 0, some 256⟩,
    .setFilter 0 ⟨256, 0, 0, 0, 0⟩, .setFilter 0 ⟨0, 256, 0, 0, 0⟩, .setFilter 0 ⟨0, 0, 65536, 0, 0⟩,
    .setFilter 0 ⟨0, 0, 0, 65536, 0⟩, .setFilter 0 ⟨0, 0, 0, 0, 256⟩, .defineFixture 0 ⟨256, 0, 0, 0, 1, none, none⟩,
    .defineFixture 0 ⟨0, 256, 0, 0, 1, none, none⟩, .defineFixture 0 ⟨0, 0, 65536, 0, 1, none, none⟩,
    .defineFixture 0 ⟨0, 0, 0, 65536, 1, none, none⟩, .defineFixture 0 ⟨0, 0, 0, 0, 256, none, none⟩,
    .defineFixture 0 ⟨0, 0, 0, 0, 1, some 256, none⟩, .defineFixture 0 ⟨0, 0, 0, 0, 1, none, some 65536⟩,
    .deleteFixture 0 256, .readBus 0 256, .readFixture 0 256 none, .readFixture 0 0 (some 256),
    .setDimmer 0 ⟨256, none, none, none, none⟩, .setDimmer 0 ⟨0, some (some 65535), none, none, none⟩,
    .setDimmer 0 ⟨0, none, some 65536, none, none⟩, .setDimmer 0 ⟨0, none, none, some 65536, none⟩,
    .setDimmer 0 ⟨0, none, none, none, some 256⟩, .readDimmer 0 (some 255), .busError .a ⟨.form, 0, 8, false⟩,
    .busError .b ⟨.check, 0, 1, false⟩, .busError .a ⟨.run, 0, 7, false⟩] : List Instr).all (fun i => !i.wf) = true
      := by
  decide

/-- Commands at the largest values of their fields are well formed. -/
theorem test_wf_accepts : ([.clearFlags 255 ⟨255, 255, 255, 65535, 65535⟩, .fadeEnd 788 0, .latchInstant 3 7,
    .rankSized (.patternFault 128 32767), .writeContent 0 ⟨255, 16777215, List.replicate 255 0⟩,
    .setLiveInput 0 (some 254), .setLayer 0 ⟨255, 255, some 254, ⟨65535, 65535, 65535, 65535⟩, -32768, 32767⟩,
    cueWith (.unknown 255), .setDimmer 0 ⟨255, some (some 65534), some 65535, some 65535, some 255⟩,
    .unknownKind 0 0x7E] : List Instr).all Instr.wf = true := by
  decide +kernel

/-! ## Worked figures of the manual -/

/-- Eight cameras with the raw tallies and preferred flags given, camera i with phase offset 100 i. -/
def crew (on preferred : List Nat) : Cph :=
  { Cph.reset with cameras := mapNum (fun i c =>
      { c with phase := 100 * i, raw := on.contains i, preferred := preferred.contains i }) Cph.reset.cameras }

/-- The five rows of the table of R22. -/
theorem test_winner_table : (crew [] []).settle = none ∧ (crew [2, 5] []).settle = some 2 ∧
    (crew [2, 5] [5]).settle = some 5 ∧ (crew [1, 4, 6] [4, 6]).settle = some 4 ∧
    (crew [7] [7]).settle = some 7 := by
  decide

/-- Worked example "the slew across 0": 1000 to 8 to 40; and the bounds of the table of R24. -/
theorem test_slew : slewStep 1000 40 32 = 8 ∧ slewStep 8 40 32 = 40 ∧ slewStep 40 40 32 = 40 ∧
    slewStep 0 512 16 = 16 ∧ slewStep 0 513 16 = 1008 := by
  decide

/-- Worked example "latch instants and period starts at one phase", scan phase 900. -/
theorem test_latch_and_period_ticks : [0, 1].map (latchTick 900 2) = [57600, 24832] ∧
    [0, 1, 2].map (latchTick 900 3) = [57600, 13909, 35754] ∧
    [0, 1, 2, 3].map (periodTick 900 4) = [57600, 8448, 24832, 41216] ∧
    [0, 1, 2, 3].map (periodTick 932 4) = [59648, 10496, 26880, 43264] := by
  decide

/-- The table of R26: P, and what Q periods leave of 65536. -/
theorem test_period_table : [1, 3, 4, 7].map periodTicks = [65536, 21845, 16384, 9362] ∧
    [1, 3, 4, 7].map (fun q => 65536 - q * periodTicks q) = [0, 1, 0, 2] := by
  decide

/-- R3: the nominal period and tolerance of 59.94, and the edges of the tolerance of 25. -/
theorem test_standards : Standard.fps5994.nominal = 16683333 ∧ Standard.fps25.accepts 39200000 = true ∧
    Standard.fps25.accepts 40800000 = true ∧ Standard.fps25.accepts 39199999 = false ∧
    Standard.fps25.accepts 40800001 = false := by
  decide

/-- R86: the bar edges on canvases 1000 and 1030 wide. -/
theorem test_bar_edges : [0, 124, 125, 874, 875, 999].map (barOf 1000) = [0, 0, 1, 6, 7, 7] ∧
    [127, 128, 385, 386, 900, 901, 1029].map (barOf 1030) = [0, 1, 2, 3, 6, 7, 7] := by
  decide

/-- Worked example "one pixel from two layers to a tile": layers, brightness, tile 37. -/
theorem test_blend_example : [blend 800 200 16384, blend 400 900 16384, blend 100 1023 16384] = [650, 525, 330] ∧
    [dim 650 52428, dim 525 52428, dim 330 52428] = [520, 420, 264] ∧
    [correct 520 4506 8 576, correct 420 4096 8 576, correct 264 3686 8 576] =
      [⟨576, true⟩, ⟨428, false⟩, ⟨245, false⟩] := by
  decide

/-- Frame parameters of a wall in TEST. -/
def testing (p : Pattern) : FrameParams := ⟨.test, p, Vector.replicate 4 FrameLayer.none_, 65535⟩

/-- Worked example "test patterns through the correction", canvas column 300 of 1920. -/
theorem test_pattern_example :
    sentRgb (tileOutput (testing .bars75) 1920 300 37 ⟨4506, 4096, 3686, 8, 576⟩ ⟨0, 0, 0⟩) = ⟨576, 576, 8⟩ ∧
    sentClipped (tileOutput (testing .bars75) 1920 300 37 ⟨4506, 4096, 3686, 8, 576⟩ ⟨0, 0, 0⟩) = true ∧
    sentRgb (tileOutput (testing .bars100) 1920 300 64 Correction.unity ⟨0, 0, 0⟩) = ⟨1023, 1023, 0⟩ ∧
    sentRgb (tileOutput (testing .tileId) 1920 300 37 ⟨4506, 4096, 3686, 8, 576⟩ ⟨0, 0, 0⟩) = ⟨173, 173, 173⟩ := by
  decide

/-- Worked example "a turned tile". -/
theorem test_turned_tile :
    [0, 100, 2047].map (Tile.canvasPixel ⟨0, 0, 0, ⟨128, 0, 64, 32⟩, .normal, Correction.unity⟩) =
      [(128, 0), (164, 1), (191, 31)] ∧
    [0, 100, 2047].map (Tile.canvasPixel ⟨0, 0, 0, ⟨128, 0, 64, 32⟩, .turned, Correction.unity⟩) =
      [(191, 31), (155, 30), (128, 0)] := by
  decide

/-- Worked example "a zone measured and delivered". -/
theorem test_zone_averages :
    Zone.averages ⟨0, ⟨0, 0, 480, 270⟩, 77760000, 64800000, 45360000, 129600, none, none, true, false⟩ =
      ⟨600, 500, 350, 513⟩ := by
  decide

/-- Worked examples "one fade on two curves" and "a takeover". -/
theorem test_fade_example :
    fadeLevel Curve.linear ⟨10000, 50000, 90, 0, 0, .manual⟩ 30 = 23333 ∧
    fadeLevel (put (put Curve.linear 5 12000) 6 16000) ⟨10000, 50000, 90, 0, 2, .manual⟩ 30 = 18137 ∧
    fadeLevel Curve.linear ⟨10000, 50000, 90, 0, 0, .manual⟩ 29 = 22888 ∧
    fadeLevel Curve.linear ⟨23333, 0, 45, 0, 0, .manual⟩ 1 = 22815 := by
  decide

/-- Worked example "a tracking channel in SUM". -/
theorem test_tracking_example :
    Channel.track ⟨.sum, 2, .y, 320, 64, 30000, 0, 0, false⟩ ⟨600, 500, 350, 513⟩ = 32760 ∧
    Channel.compute ⟨.sum, 2, .y, 320, 64, 32760, 0, 0, false⟩ 40000 52428 =
      ⟨.sum, 2, .y, 320, 64, 32760, 65535, 52428, true⟩ := by
  decide

/-- Worked example "widths at one divisor". -/
theorem test_dimmer_widths : dimmerWidth 52428 4 0 = 13107 ∧ dimmerWidth 100 4 200 = 200 ∧ dimmerWidth 3 4 200 = 200 ∧
    dimmerWidth 3 4 0 = 0 ∧ dimmerWidth 0 4 200 = 0 ∧ dimmerWidth 65535 4 200 = 16384 := by
  decide

/-- The nine ASCII bytes of the text 123456789. -/
def digits : List Byte := [0x31, 0x32, 0x33, 0x34, 0x35, 0x36, 0x37, 0x38, 0x39]

/-- R150 and R171: the two checks over the text 123456789. -/
theorem test_checks : busCheck (digits.flatMap byteBits) = 0xFEE8 ∧ linkCheck digits = 0x29B1 := by
  decide +kernel

/-- R150: a run of six equal bits is followed by one bit of the other value, which begins the next run. -/
theorem test_stuffing : stuff false 0 (List.replicate 7 true) = [true, true, true, true, true, true, false, true] := by
  decide

/-- Worked sequence "a cut bus": the port state at TXE 88, 96, 184 and 192. -/
theorem test_port_states : [88, 96, 184, 192].map (fun t => stateOfCounts t 0) = [.normal, .passive, .passive,
    .detached] := by
  decide

/-- R170: the link rate in Mbit/s for the straps, both high at 25. -/
theorem test_link_rate : linkRate 3 = 25 := by decide

/-- R136: points of the default curve 1. -/
theorem test_curve_points : [0, 7, 8, 9, 16].map (fun i => at_ Curve.smooth i 0) = [0, 28800, 32768, 36735, 65535] := by
  decide

/-! ## Small states -/

def s0 : State := State.reset

/-- A still region of 16 by 16 pixels at page 0, on one page. -/
def still16 : Region := ⟨.still, 0, 16, 16, true, 1, 1, 0, 0, 0⟩

/-- A live region of 16 by 16 pixels at page 1, on three pages. -/
def live16 : Region := ⟨.live, 1, 16, 16, false, 1, 3, 0, 0, 0⟩

/-- One rank of 32 MiB, regions as given. -/
def stored (regions : Table Region) : State :=
  s0.setFsc { s0.fsc with
    ranks := #v[⟨.present, some 32, some 0, 8192, none, none⟩, Rank.after .absent, Rank.after .absent, Rank.after
      .absent]
    store := .ready, sizingAt := 4, pageTotal := 8192, regions := regions }

/-- Regions 0 (still) and 1 (live). -/
def s1 : State := stored [(0, still16), (1, live16)]

/-- A wall of 16 by 16 with no frame yet. -/
def wall16 : Wall := newWall ⟨0, 16, 16, 1, ⟨100, 200, 300⟩⟩

/-- A wall of 16 by 16 in the frame in progress, in NORMAL with no layer. -/
def shown16 : Wall :=
  { wall16 with frame := some ⟨.normal, .bars75, Vector.replicate 4 FrameLayer.none_, 65535⟩ }

/-- Wall 0 and the two regions. -/
def s2 : State := s1.setWse { s1.wse with walls := [(0, wall16)] }

/-- Wall 0 with a frame, one tile of it on chain 0, and one zone of two pixels. -/
def tile16 : Tile := ⟨0, 0, 0, ⟨0, 0, 16, 16⟩, .normal, Correction.unity⟩
def zone2 : Zone := ⟨0, ⟨0, 0, 2, 1⟩, 0, 0, 0, 0, none, none, true, false⟩
def s3 : State := s1.setWse { s1.wse with
  walls := [(0, shown16)], tiles := [(0, tile16)], frameTiles := [(0, tile16)], zones := [(0, zone2)]
  chains := put s1.wse.chains 0 { Chain.reset with state := .ok, whole := true } }

/-- Port A enabled, NORMAL, with fixture 0 at address 20 on channels 100 and 101. -/
def fixture20 : Fixture := ⟨.a, 20, 100, 2, 50, 150, .unseen, none, none, 50, 0, false⟩
def portOn : BusPort := { BusPort.reset with enabled := true, state := .normal }
def busWith (b : BusPort) : State := s0.setFbc ⟨b, BusPort.reset, [(0, fixture20)]⟩

/-- What a step answers, read by `f`; none where it stops. -/
def after {α : Type} (r : Result) (f : State → α) : Option α :=
  match r with
  | .next t => some (f t)
  | _ => none

/-- The last frame made ready, if it is a reply. -/
def lastReply (s : State) : Option Reply :=
  match s.lkd.ready.getLast? with
  | some (.reply r) => some r
  | _ => none

/-! ## Single steps -/

/-- Worked sequence "start-up seen from the link": DEFINE REGION before sizing ends is answered NOT_READY. -/
theorem test_define_region_not_ready :
    after (exec (.defineRegion 2 ⟨0, 0, 0, 16, 16, none⟩) s0) lastReply = some (some ⟨2, 0xA0, .notReady, []⟩) := by
  decide +kernel

/-- R37: a 1920 × 1080 still region takes 2025 pages. -/
theorem test_region_pages : after (exec (.defineRegion 0 ⟨5, 0, 100, 1920, 1080, none⟩) (stored []))
    (fun t => (t.region 5).map (fun r => (r.base, r.pages, r.protect))) = some (some (100, 2025, true)) := by
  decide +kernel

/-- Same sequence: with one 64 MiB rank at position 0, sizing of position 3 makes READY with 16384 pages. -/
theorem test_sizing_ready :
    after (exec (.rankSized .absent) (s0.setFsc { s0.fsc with
        sizingAt := 3, ranks := put s0.fsc.ranks 0 (Rank.after (.passed 64)) }))
      (fun t => (t.fsc.store, t.fsc.pageTotal, noticeCount t.lkd.ready)) = some (.ready, 16384, 1) := by
  decide +kernel

/-- R52, R55: a granted burst writes the pixel posted at offset 3, high byte first (log 7), and drains the entry. -/
theorem test_burst_writes :
    after (exec (.burstGrant ⟨none, 0⟩) (s1.setFsc { s1.fsc with posting := [⟨0, .write 3 [0x3F012345], 0⟩] }))
      (fun t => (t.fsc.mem, t.fsc.posting)) = some ([(12, 0x3F), (13, 0x01), (14, 0x23), (15, 0x45)], []) := by
  decide +kernel

/-- Worked sequence "a write waiting for a place": a write to a protected region on air is refused ON_AIR. -/
theorem test_write_on_air :
    after (exec (.writeContent 9 ⟨0, 0, [1]⟩) (stored [(0, { still16 with air := 1 })])) lastReply =
      some (some ⟨9, 0xA5, .onAir, []⟩) := by
  decide +kernel

/-- R53: with 8 entries in the posting buffer the reply is withheld and nothing is posted. -/
theorem test_write_waits :
    after (exec (.writeContent 9 ⟨0, 0, [1]⟩)
        (s1.setFsc { s1.fsc with posting := List.replicate 8 ⟨0, .write 0 [1], 0⟩ }))
      (fun t => (t.lkd.hold, t.lkd.ready, t.fsc.posting.length)) = some (.place, [], 8) := by
  decide +kernel

/-- R176, the manual's example: 31 notices and a count of 5. -/
theorem test_notices_dropped_example :
    let n : Notice := ⟨.storeReady, 7, []⟩
    let l : Lkd := { Lkd.reset with ready := List.replicate 31 (.notice n), dropped := 5 }
    (l.raise n).ready = List.replicate 31 (.notice n) ++ [.notice ⟨.noticesDropped, 7, [.u2 5]⟩] ∧
      (l.raise n).dropped = 1 := by
  decide +kernel

/-- R21: TALLY to a camera whose source is LINE is answered WRONG_STATE. -/
theorem test_tally_wrong_state : after (exec (.tally 1 0 1) s0) lastReply = some (some ⟨1, 0x97, .wrongState, []⟩) := by
  decide +kernel

/-- R47: SET SLEW under the show lock is answered LOCKED. -/
theorem test_locked : after (exec (.setSlew 1 5) (s0.setFsc { s0.fsc with showLock := true })) lastReply =
    some (some ⟨1, 0x96, .locked, []⟩) := by
  decide +kernel

/-- R29: a slew limit of 0 is taken as 1 and one above 1024 as 1024. -/
theorem test_slew_clamped : [0, 2000].map (fun n => after (exec (.setSlew 1 n) s0) (fun t => t.cph.slewLimit)) =
    [some 1, some 1024] := by
  decide +kernel

/-- R97: the first canvas pixels of a wall with no layer are its background. -/
theorem test_scan_background : after (exec (.dramAccessGrant ⟨some (0, 2), 0⟩) s3)
    (fun t => ((t.wall 0).map (fun x => x.picture), (t.wse.zones.find 0).map (fun z => (z.sumR, z.taken)))) =
      some (some [⟨100, 200, 300⟩, ⟨100, 200, 300⟩], some (200, 2)) := by
  decide +kernel

/-- R72: with buffer 1 latched, the writer's buffer 0 becomes the newest and the writer moves to buffer 2. -/
theorem test_rotation :
    let l : Lip := { Lip.reset with
      writer := some 0, newest := some 1, latch := put Lip.reset.latch 5 (some ⟨1, .frame⟩) }
    (l.rotate.newest, l.rotate.writer) = (some 0, some 2) := by
  decide +kernel

/-- R90: the third miss in a row makes FAULT. -/
theorem test_third_miss : ((judgeChain 0 (s3.setWse { s3.wse with
    chains := put s3.wse.chains 0 { Chain.reset with state := .ok, whole := true, misses := 2, sent := some 9 }
      })).chain
      0).state = .fault := by
  decide +kernel

/-- R111: a cue with no action is answered RANGE. -/
theorem test_empty_cue : after (exec (.storeCue 1 ⟨1, 0, 0, []⟩) s0) lastReply = some (some ⟨1, 0xC0, .range, []⟩) := by
  decide +kernel

/-- R111 check 1: a WALL MODE action in NORMAL with a pattern code that names nothing is answered RANGE. -/
theorem test_cue_pattern_code :
    after (exec (.storeCue 1 ⟨1, 0, 0, [⟨0, .wallMode 0 0 9 ⟨0, 0, 0⟩⟩]⟩) s2) lastReply =
      some (some ⟨1, 0xC0, .range, []⟩) := by
  decide +kernel

/-- R115: GO with no standby is answered NO_SUCH. -/
theorem test_go_no_standby : after (exec (.go 1) s0) lastReply = some (some ⟨1, 0xC3, .noSuch, []⟩) := by
  decide +kernel

/-- R141: a channel in FADE whose level is 40000, with the master at 52428, goes out at floor(40000 × 52428 / 65535). -/
theorem test_channel_output : (Channel.reset.compute 40000 52428).output = 32000 := by
  decide +kernel

/-- Worked sequence "a cut bus": a failed send from TXE 184 makes 192, DETACHED, with the fixture in the dirty set. -/
theorem test_twenty_fourth_failure :
    after (exec (.busError .a ⟨.missingAck, 0, 0, false⟩) (busWith { portOn with
        state := .passive, txe := 184, queue := [⟨0, some [0, 0], false⟩] }))
      (fun t => ((t.port .a).txe, (t.port .a).state, (t.port .a).queue, (t.port .a).dirty)) =
        some (192, .detached, [], [0]) := by
  decide +kernel

/-- Worked sequence "three fixtures on port A", step 2: the send begins with the snapshot of the outputs. -/
theorem test_send_start : after (exec (.sendStart .a 4) (busWith { portOn with queue := [⟨0, none, false⟩] }))
    (fun t => (t.port .a).queue) = some [⟨0, some [0, 0], false⟩] := by
  decide +kernel

/-- R170, R171: a GO with tag 7 received byte by byte is in the request queue. -/
theorem test_receive_go :
    after (exec (.controlLinkFrame 0 255 ((linkFrame 7 0x43 []).map (fun b => ⟨false, charBits b⟩))) s0)
      (fun t => t.lkd.requests) = some [.command (.go 7)] := by
  decide +kernel

/-- R12: the late limit of a 40 ms period comes 2.5 ms, a sixteenth of it, after the expected end. -/
theorem test_late_limit : ({ s0.rtu with period := 40000000 } : Rtu).lateTime = 42500000 := by
  decide +kernel

/-- R170: a character is its start bit, eight data bits with the lowest first, and its stop bit. -/
theorem test_character_bits : charBits 0xC5 = [false, true, false, true, false, false, false, true, true, true] ∧
    LineChar.read ⟨false, charBits 0xC5⟩ = ⟨0xC5, false, false⟩ := by
  decide

/-- R68: the live capture access that writes a frame's last pixel completes it. -/
theorem test_capture_completes : after (exec (.dramAccessGrant ⟨none, 9⟩) (s1.setLip { s1.lip with
      bound := some 1, port := .running, writer := some 0, capture := ⟨.received, 15, 16⟩, queue := [⟨0, 255, 7⟩] }))
    (fun t => (t.lip.complete, t.lip.newest, t.lip.writer)) = some (1, some 0, some 1) := by
  decide +kernel

/-- R74: capture progress stands behind the last pixel written, and a pixel of the frame before does not move it. -/
theorem test_progress_counts_written :
    [(9, 0), (1, 1), (9, 1)].map (fun x => after (exec (.dramAccessGrant ⟨none, x.1⟩) (s1.setLip { s1.lip with
      bound := some 1, port := .running, writer := some 0, capture := ⟨.line, 0, 8⟩, progress := some (0, 0)
      earlier := x.2, queue := [⟨0, 4, 7⟩, ⟨0, 5, 8⟩] })) (fun t => (t.lip.progress, t.lip.earlier))) =
      [some (some (0, 6), 0), some (some (0, 0), 0), some (some (0, 6), 0)] := by
  decide +kernel

/-- R152: a frame whose end field errs at its third bit has been acknowledged before the error mark of 7 bits. -/
theorem test_mark_after_acknowledgement : (errorMark (acknowledgedBit ⟨.form, 0, 3, false⟩ false) .normal).bits =
      [false, true, true, true] ++ List.replicate 7 false ∧
    (errorMark (acknowledgedBit ⟨.form, 0, 3, false⟩ true) .passive).bits = List.replicate 7 true := by
  decide

/-- R153: nothing is received before the 9 recessive bits after an error mark, and the next frame after them is. -/
theorem test_delimiter_gates_reception : [8, 9].map (fun n => after (exec (.validReception .a ⟨n, busFrame 532 [0, 20]⟩)
      (busWith { portOn with drive := .mark true 0, rxe := 5 }))
      (fun t => ((t.port .a).rxe, (t.port .a).drive, (t.fbc.fixtures.find 0).map (·.temperature)))) =
    [some (5, .mark true 0, some none), some (4, .ack, some (some 20))] := by
  decide +kernel

/-- R151: a frame that passes before the delimiter of a PASSIVE port's mark is the last on the line, and not its own. -/
theorem test_last_frame_in_delimiter :
    let s := busWith { portOn with state := .passive, txe := 104, lastOwn := true, drive := .mark false 0 }
    [after (exec (.validReception .a ⟨8, busFrame 5 []⟩) s) (fun t => ((t.port .a).lastOwn, (t.port .a).rxe)),
      after (exec (.busError .a ⟨.check, 8, 0, true⟩) s) (fun t => ((t.port .a).lastOwn, (t.port .a).rxe)),
      after (exec (.busError .a ⟨.run, 0, 0, false⟩) s) (fun t => ((t.port .a).lastOwn, (t.port .a).rxe))] =
      [some (false, 0), some (false, 0), some (true, 0)] := by
  decide +kernel

/-- R180: the reset pin cuts the reply of a CANCEL GO off after its first character, 0xC5 with its start and stop bit. -/
theorem test_pin_cuts_frame : after (exec (.resetPin ⟨0, 0, 0, some 10⟩)
      (s0.setLkd { s0.lkd with sent := some (.reply ⟨1, 0xC5, .notPending, []⟩) })) (fun t => t.lkd.lineBits) =
    some [false, true, false, true, false, false, false, true, true, true] := by
  decide +kernel

/-- R165, R168: at a boundary that cuts, the pin keeps the old polarity only where a period was in progress. -/
theorem test_polarity_at_cut : [some 0, none].map (fun j => (Dimmer.atBoundary true { Dimmer.reset with
      setting := ⟨some 1, 1, 0, .activeHigh⟩, pending := some ⟨some 1, 1, 0, .activeLow⟩, period := j }).driven) =
    [.activeHigh, .activeLow] := by
  decide

/-- R25: a latch instant comes once in a frame. -/
theorem test_latch_once : after (exec (.latchInstant 0 0) (s3.setWse { s3.wse with
      walls := [(0, { shown16 with reached := [0] })] })) (fun t => (t.chain 0).sent) = some none := by
  decide +kernel

/-- R5: the counter wraps from 4294967295 to 0. -/
theorem test_counter_wraps : (Rtu.beginFrame { s0.rtu with counter := 0xFFFFFFFF } 1).counter = 0 := by
  decide +kernel

/-! ## States and operands that meet the hypotheses of each statement -/

/-- With nothing withheld and no request waiting, every request is taken. -/
theorem takes_idle (s : State) (i : Instr) (h : s.lkd.hold = .free) (hq : s.lkd.requests = []) : s.takes i [] :=
  ⟨h, .inl ⟨hq, rfl⟩⟩

/-- With the request at the head, it is taken. -/
theorem takes_head (s : State) (i : Instr) (rest : List QueuedRequest) (h : s.lkd.hold = .free)
    (hq : s.lkd.requests = .command i :: rest) : s.takes i rest :=
  ⟨h, .inr hq⟩

def asked (i : Instr) (rest : List QueuedRequest) (s : State) : State :=
  s.setLkd { s.lkd with requests := .command i :: rest }
def holding (h : Hold) (s : State) : State := s.setLkd { s.lkd with hold := h }
def lockedShow (s : State) : State := s.setFsc { s.fsc with showLock := true }

theorem test_witness_StepRunsFrontCommand : ({ s0 with pending := [.transmitFrame, .lineStrobe] } : State).pending =
    .transmitFrame :: [.lineStrobe] := rfl

theorem test_witness_StepWithNoCommand : s0.pending = [] ∧ s0.nextWork = none ∧ (asked (.go 1) [] s0).pending = [] ∧
    (asked (.go 1) [] s0).nextWork = some (.command (.go 1)) ∧
    (s0.setLkd { s0.lkd with requests := [.badLength 1 0x43] }).nextWork = some (.badLength 1 0x43) := by
  decide +kernel

theorem test_witness_FullResetAndSizing :
    ((holding (.resetDue .full) s0).lkd.hold = .resetDue .full ∧ (⟨3, 0, 0, none⟩ : ResetIn).cut = 0) ∧
    (let r : Region := { still16 with posted := 1 }
     let e : PostEntry := ⟨0, .write 3 [7, 8], 0⟩
     let s := (stored [(0, r)]).setFsc { (stored [(0, r)]).fsc with posting := [e] }
     (⟨3, 1, 0, none⟩ : ResetIn).live = 0 ∧ s.fsc.posting = e :: [] ∧ s.region e.region = some r ∧
      burstFails e.region r s = none ∧ ((e.burst r).take 1).getLast? = some (3, 7) ∧
      (s.fsc.pixelAddr r 0 3).isSome = true) ∧
    (let s := s1.setLip { s1.lip with bound := some 1, queue := [⟨0, 14, 7⟩, ⟨0, 15, 8⟩, ⟨0, 16, 9⟩] }
     0 < (⟨3, 0, 3, none⟩ : ResetIn).live ∧ s.lip.bound.bind s.region = some live16 ∧
      (lineRun live16.width 3 s.lip.queue).getLast? = some ⟨0, 15, 8⟩ ∧
      (s.fsc.pixelAddr live16 0 15).isSome = true) ∧
    (∀ n : Nat, n = 79 ∨ n = 80 →
      let f : OutFrame := .reply ⟨1, 0xC5, .notPending, []⟩
      let s := s0.setLkd { s0.lkd with sent := some f }
      (⟨3, 0, 0, some n⟩ : ResetIn).sending = some n ∧ s.lkd.sent = some f ∧ s.lkd.sentCut = none) ∧
    (OutFrame.reply ⟨1, 0xC5, .notPending, []⟩).lineBits.length = 80 ∧
    ((RankOutcome.patternFault 32 8191).wf = true ∧ s0.fsc.store = .sizing ∧ s0.fsc.sizingAt < 3) ∧
    (let f : Fsc := { s0.fsc with sizingAt := 3, ranks := #v[Rank.after (.passed 128), Rank.after .absent,
        Rank.after .sizeFault, Rank.reset] }
     f.store = .sizing ∧ f.sizingAt = 3 ∧ (at_ f.ranks 0 Rank.reset).state = .present ∧
      (at_ f.ranks 0 Rank.reset).size = some 128 ∧
      ∀ i, i < f.sizingAt → ∃ o' : RankOutcome, o'.wf = true ∧ at_ f.ranks i Rank.reset = Rank.after o') := by
  refine ⟨by decide +kernel, by decide +kernel, by decide +kernel, ?_, by decide +kernel, by decide, rfl, rfl,
    by decide, by decide, ?_⟩
  · rintro n (rfl | rfl) <;> exact ⟨rfl, rfl, rfl⟩
  intro i hi
  match i, hi with
  | 0, _ => exact ⟨.passed 128, by decide, by decide⟩
  | 1, _ => exact ⟨.absent, by decide, by decide⟩
  | 2, _ => exact ⟨.sizeFault, by decide, by decide⟩

theorem test_witness_ResetRequestAndLinkReset : s0.takes (.reset 1 0) [] ∧ s0.takes (.reset 1 1) [] ∧
    (lockedShow s0).takes (.reset 1 1) [] ∧ s0.takes (.reset 1 2) [] ∧
    (holding (.resetDue .link) s0).lkd.hold = .resetDue .link :=
  ⟨takes_idle _ _ rfl rfl, takes_idle _ _ rfl rfl, takes_idle _ _ rfl rfl, takes_idle _ _ rfl rfl, rfl⟩

theorem test_witness_ReceivedRequestJoinsOrIsBusy : s0.lkd.rx = .hunting ∧
    (List.replicate 1024 (0 : Byte)).length ≤ 1024 ∧ (0x7E : Byte).toNat < 0x7F := by
  exact ⟨rfl, Nat.le_of_eq List.length_replicate, by decide⟩

/-- A frame whose bytes so far are given. -/
def receiving (bytes : List Byte) : State := s0.setLkd { s0.lkd with rx := .inFrame bytes }

theorem test_witness_BadFramesAreDiscarded : s0.lkd.rx = .hunting ∧ (0xC4 : Byte) ≠ 0xC5 ∧
    (receiving [4]).lkd.rx = .inFrame [4] ∧ ([4] : List Byte).length = 1 ∧ 1024 < frameLength ([4] ++ [1]) ∧
    [0, 0, 1, 0x43, 0].length + 1 = frameLength ([0, 0, 1, 0x43, 0] ++ [0]) + 6 ∧
    ([0, 0, 1, 0x43, 0] ++ [0] : List Byte).drop (4 + frameLength ([0, 0, 1, 0x43, 0] ++ [0])) ≠
      bytes2 (linkCheck (([0, 0, 1, 0x43, 0] ++ [0]).take (4 + frameLength ([0, 0, 1, 0x43, 0] ++ [0])))).toNat ∧
    0x7F ≤ (([0, 0, 1, 0x7F, 0] ++ [0] : List Byte).getD 3 0).toNat := by
  decide +kernel

theorem test_witness_RequestBodiesRoundTrip : (Instr.stepFrames 7 65535).wf = true ∧
    requestParts (.stepFrames 7 65535) = some (0x48, 7, [0xFF, 0xFF]) := by
  decide +kernel

theorem test_witness_RequestsServedInTurn :
    (requestParts (.hold 2) = some (0x46, 2, []) ∧ ∀ rest, ¬(asked (.go 1) [] s0).takes (.hold 2) rest) ∧
    (∀ rest, ¬(asked (.go 1) [] s0).takes (.unknownKind 1 0x7E) rest) ∧
    s0.takes (.hold 2) [] ∧ s0.takes (.unknownKind 1 0x7E) [] ∧ (0x7E : Byte).toNat < 0x7F ∧
    (0x7E : Byte).toNat ∉ catalogue := by
  refine ⟨⟨by decide, ?_⟩, ?_, takes_idle _ _ rfl rfl, takes_idle _ _ rfl rfl, by decide, by decide⟩ <;>
    (rintro rest ⟨-, h⟩
     revert h
     simp [asked, State.setLkd])

theorem test_witness_TransmitSendsOldestReady :
    (s0.setLkd { s0.lkd with ready := [.reply ⟨1, 0x85, .ok, [.u1 0]⟩], hold := .resetReply .link }).lkd.ready =
      .reply ⟨1, 0x85, .ok, [.u1 0]⟩ :: [] ∧
    (∀ scope, (s0.setLkd { s0.lkd with hold := .resetReply .link }).lkd.hold ≠ .resetDue scope) ∧
    (∀ scope, s0.lkd.hold ≠ .resetReply scope) := by
  refine ⟨rfl, ?_, ?_⟩ <;> intro scope h <;> cases h

/-- A notice of a class in the mask, and the dispatcher with `n` of them waiting and `d` dropped. -/
def aNotice : Notice := ⟨.storeReady, 7, []⟩
def waiting (n d : Nat) : Lkd := { Lkd.reset with ready := List.replicate n (.notice aNotice), dropped := d }

theorem test_witness_NoticesMaskedQueuedAndDropped :
    ({ NoticeMask.all with store := false } : NoticeMask).passes aNotice.kind = false ∧
    (waiting 32 0).mask.passes aNotice.kind = true ∧ 32 ≤ noticeCount (waiting 32 0).ready ∧
    ((waiting 31 0).dropped = 0 ∧ noticeCount (waiting 31 0).ready < 32) ∧
    (0 < (waiting 30 1).dropped ∧ noticeCount (waiting 30 1).ready < 31) ∧
    (0 < (waiting 31 5).dropped ∧ noticeCount (waiting 31 5).ready = 31) ∧ s0.takes (.setNoticeMask 1 63) [] := by
  refine ⟨?_, ?_, ?_, ?_, ?_, ?_, takes_idle _ _ rfl rfl⟩ <;> decide +kernel

theorem test_witness_ClearFlagsRequest : s0.takes (.clearFlags 1 ⟨16, 0, 0, 0, 0⟩) [] ∧
    s0.takes (.clearFlags 1 ⟨15, 15, 7, 0, 768⟩) [] ∧ 15 < 16 ∧ 0 + 768 ≤ 768 :=
  ⟨takes_idle _ _ rfl rfl, takes_idle _ _ rfl rfl, by decide, by decide⟩

theorem test_witness_ReadsChangeNothing : requestParts (.readZone 1 0) = some (0x39, 1, [0]) ∧ 0x39 ∈ readKinds ∧
    s3.takes (.readZone 1 0) [] ∧ s3.takes (.identify 1) [] ∧ s3.wse.zones.find 0 = some zone2 ∧
    s3.answersRead (.readZone 1 0) ∧ ¬s3.answersRead (.readZone 1 7) := by
  refine ⟨by decide, by decide, takes_idle _ _ rfl rfl, takes_idle _ _ rfl rfl, rfl, ?_, ?_⟩ <;>
    simp [State.answersRead, s3, State.setWse, Table.find]

theorem test_witness_SetReferenceCarriedOut : s0.takes (.setReference 1 ⟨none, none, none, none, some 0⟩) [] ∧
    s0.fsc.showLock = false ∧ keepOr s0.rtu.mode RefMode.ofCode none = some .lock ∧
    keepOr s0.rtu.mode RefMode.ofCode (some 1) = some .free ∧
    keepOr s0.rtu.standard Standard.ofCode (some 2) = some .fps25 ∧
    keepOr s0.rtu.fieldMode FieldMode.ofCode none = some .progressive ∧
    keepOr s0.rtu.polarity FieldPolarity.ofCode (some 1) = some .inverted :=
  ⟨takes_idle _ _ rfl rfl, rfl, rfl, rfl, rfl, rfl, rfl⟩

/-- The generator in state `g`, 25 frames, with a period of 40 ms. -/
def ref25 (g : GenState) : Rtu :=
  { s0.rtu with gen := g, standard := .fps25, period := 40000000, prevStart := some 0 }

theorem test_witness_LinePulsesAndReferenceStarts : s0.rtu.fieldMode = .progressive ∧
    ({ s0.rtu with fieldMode := .fieldLine } : Rtu).fieldMode = .fieldLine ∧
    (let r : Rtu := { s0.rtu with fieldMode := .pulsePhase, lastLine := some 1000, linePeriod := some 64000 }
     r.fieldMode = .pulsePhase ∧ r.lastLine = some 1000 ∧ r.linePeriod = some 64000) := by
  decide +kernel

/-- A frame pulse at moment `t`. -/
def pulse (t : Nat) : FramePulse := ⟨t, true, none, 255⟩

/-- The part with generator `r`, and what it is like when a pulse comes. -/
def withRef (r : Rtu) : State := s0.setRtu r
def pulsed (p : FramePulse) (s : State) : State := (s.setRtu (s.rtu.advance p.time)).setCph { s.cph with lines :=
    p.tally }

theorem test_witness_FramePulseOutsideAcquisition :
    (∀ g, g = .freerun ∨ g = .holdover →
      let s := withRef (ref25 g)
      ¬(s.rtu.gen = .locked ∧ s.rtu.lateTime < (pulse 1).time) ∧ (pulsed (pulse 1) s).rtu.qualifies (pulse 1) = true ∧
        s.rtu.gen = g ∧ s.rtu.mode = .lock) ∧
    (let s := withRef { ref25 .holdover with mode := .free }
     ¬(s.rtu.gen = .locked ∧ s.rtu.lateTime < 1) ∧ (pulsed (pulse 1) s).rtu.qualifies (pulse 1) = true ∧
      s.rtu.gen = .holdover ∧ s.rtu.mode = .free) ∧
    (let s := withRef { ref25 .freerun with fieldMode := .fieldLine, polarity := .inverted }
     ¬(s.rtu.gen = .locked ∧ s.rtu.lateTime < 1) ∧ (pulsed (pulse 1) s).rtu.qualifies (pulse 1) = false) ∧
    (let s := withRef (ref25 .locked)
     let p := pulse 37499999
     ¬(s.rtu.gen = .locked ∧ s.rtu.lateTime < p.time) ∧ (pulsed p s).rtu.qualifies p = true ∧ s.rtu.gen = .locked ∧
      (pulsed p s).rtu.tickAt p.time + 4096 < s.rtu.endTick) ∧
    (∀ t, t = 37500000 ∨ t = 42500000 →
      let s := withRef (ref25 .locked)
      let p := pulse t
      ¬(s.rtu.gen = .locked ∧ s.rtu.lateTime < p.time) ∧ (pulsed p s).rtu.qualifies p = true ∧ s.rtu.gen = .locked ∧
        s.rtu.endTick ≤ (pulsed p s).rtu.tickAt p.time + 4096) := by
  refine ⟨?_, by decide +kernel, by decide +kernel, by decide +kernel, ?_⟩
  · rintro g (rfl | rfl) <;> decide +kernel
  · rintro t (rfl | rfl) <;> decide +kernel

theorem test_witness_AcquisitionCountsToLocked :
    (let s := withRef (ref25 .acquiring)
     s.rtu.gen = .acquiring ∧ (pulsed (pulse 1) s).rtu.qualifies (pulse 1) = true ∧ s.rtu.acqStarted = false) ∧
    (∀ t n : Nat, t = 40000000 ∧ n = 8 ∨ t = 40039062 ∧ n = 8 ∨ t = 40039063 ∧ n = 1 ∨ t = 40800001 ∧ n = 0 →
      let s := withRef { ref25 .acquiring with acqStarted := true, acqCount := 7, acqPrev := some 40000000 }
      s.rtu.gen = .acquiring ∧ (pulsed (pulse t) s).rtu.qualifies (pulse t) = true ∧ s.rtu.acqStarted = true ∧
        s.rtu.countAfter (t - 0) = n ∧ 32768 ≤ (pulsed (pulse t) s).rtu.tick) ∧
    (∀ t k : Nat, t = 0 ∧ k = 0 ∨ t = 19999999 ∧ k = 32767 →
      let s := withRef { ref25 .acquiring with
        acqStarted := true, acqCount := 7, acqPrev := some 40000000, prevStart := some 0, baseTime := 40000000
        now := 40000000 }
      s.rtu.gen = .acquiring ∧ (pulsed (pulse (40000000 + t)) s).rtu.qualifies (pulse (40000000 + t)) = true ∧
        s.rtu.acqStarted = true ∧ (pulsed (pulse (40000000 + t)) s).rtu.tick = k) := by
  refine ⟨by decide +kernel, ?_, ?_⟩
  · rintro t n (⟨rfl, rfl⟩ | ⟨rfl, rfl⟩ | ⟨rfl, rfl⟩ | ⟨rfl, rfl⟩) <;> decide +kernel
  · rintro t k (⟨rfl, rfl⟩ | ⟨rfl, rfl⟩) <;> decide +kernel

theorem test_witness_FrameBoundaryBeginsFrame : s0.rtu.gen ≠ .locked := by decide

theorem test_witness_GeneratorLosesReference : (ref25 .locked).gen = .locked ∧
    (let r : Rtu := { ref25 .acquiring with gapCount := 3 }
     r.gen = .acquiring ∧ 3 ≤ r.gapCount ∧ r.acqOrigin = .freerun) ∧
    (let r : Rtu := { ref25 .acquiring with gapCount := 3, acqOrigin := .holdover, holdoverCount := 48 }
     3 ≤ r.gapCount ∧ r.acqOrigin = .holdover ∧ r.holdoverCount + 1 < r.holdoverLimit) ∧
    (let r : Rtu := { ref25 .holdover with holdoverCount := 49 }
     r.gen = .holdover ∧ r.holdoverLimit ≤ r.holdoverCount + 1) ∧
    (let r : Rtu := { ref25 .acquiring with gapCount := 2, acqOrigin := .holdover, holdoverCount := 49 }
     r.acqOrigin = .holdover ∧ r.holdoverLimit ≤ r.holdoverCount + 1 ∧ r.gapCount < 3) := by
  decide +kernel

theorem test_witness_BoundaryEnds : s0.rtu.gen ≠ .locked ∧
    (let c : CueEngine := { s0.cue with waits := [⟨.masterFade 0 0 0, 1, some 1, 1⟩] }
     c.pending = none ∧ c.standby = none ∧ ∃ e ∈ c.waits, 0 < c.advance ∧ e.remaining ≤ c.advance) ∧
    (let e : WaitEntry := ⟨.layerSource 0 1 (some 0) ⟨0, 0, 16, 16⟩ 0 0, 1, some 7, 1⟩
     let s := s2.setCue { s2.cue with waits := [e, ⟨.masterFade 0 0 0, 2, some 7, 2⟩], active := [⟨7, 0, 2⟩] }
     s.cue.pending = none ∧ s.cue.standby = none ∧ s.lvp.manual = [] ∧ s.lvp.fades = [] ∧ 0 < s.cue.advance ∧
      s.cue.waits.filter (fun d => decide (d.remaining ≤ s.cue.advance)) = [e] ∧ s.wall 0 = some wall16 ∧
      (⟨7, 0, 2⟩ : Active) ∈ s.cue.active ∧ e.owner = some (⟨7, 0, 2⟩ : Active).cue ∧
      ∀ c ∈ s.cue.active, c.cue = 7 → 1 < c.outstanding) ∧
    (let c : CueEngine := { s0.cue with
        follow := some ⟨1, 5⟩, standby := some 2, cues := [(2, ⟨.follow 5, [⟨0, .masterFade 0 0 0⟩]⟩)] }
     c.pending = none ∧ c.active = [] ∧ c.follow = some ⟨1, 5⟩ ∧ 0 < c.advance ∧ (⟨1, 5⟩ : Follow).remaining ≤
       c.advance ∧
       c.standby = some 2 ∧ c.cues.find 2 = some ⟨.follow 5, [⟨0, .masterFade 0 0 0⟩]⟩) ∧
    (let f : Fade := ⟨0, 65535, 90, 89, 0, .manual⟩
     let l : Lvp := { s0.lvp with fades := [(40, { f with elapsed := 0 }), (788, f)] }
     788 ≤ 788 ∧ l.fades.find 788 = some f ∧ 0 < s0.cue.advance ∧ f.duration ≤ f.elapsed + s0.cue.advance ∧
       l.manual = [] ∧ Table.wf l.fades = true ∧ l.fades.find 40 = some { f with elapsed := 0 } ∧ l.fades.find 41 =
         none) ∧
    Table.wf (busWith portOn).fbc.fixtures = true ∧ ({ fixture20 with countdown := 1 } : Fixture).countdown ≤ 1 ∧
    (let f : Fixture := { fixture20 with silence := 149 }
     0 < f.silenceLimit ∧ f.state ≠ .silent ∧ f.silenceLimit ≤ f.silence + 1) := by
  decide +kernel

theorem test_witness_TargetSettledAndPhaseStepped : 1023 < 1024 ∧ (1 : Nat) ≤ 1 ∧ (1023 + 1024 - 511) % 1024 = 512 ∧
    (1023 + 1024 - 510) % 1024 = 513 ∧ (7 + 1024 - 7) % 1024 = 0 := by
  decide

theorem test_witness_CameraRequests : s0.takes (.setIdlePhase 1 1023) [] ∧ s0.takes (.setIdlePhase 1 1024) [] ∧
    s0.takes (.setSlew 1 1025) [] ∧ s0.takes (.setCamera 1 ⟨7, some 1023, some 1, some 1, some 1⟩) [] ∧
    (some 1023).getD (s0.cph.camera 7).phase = 1023 ∧
    keepOr (s0.cph.camera 7).preferred boolOfCode (some 1) = some true ∧
    keepOr (s0.cph.camera 7).source TallySource.ofCode (some 1) = some .link ∧
    keepOr (s0.cph.camera 7).polarity LinePolarity.ofCode (some 1) = some .activeHigh ∧
    s0.takes (.tally 1 7 1) [] :=
  ⟨takes_idle _ _ rfl rfl, takes_idle _ _ rfl rfl, takes_idle _ _ rfl rfl, takes_idle _ _ rfl rfl, rfl, rfl, rfl, rfl,
    takes_idle _ _ rfl rfl⟩

theorem test_witness_RegionsDefinedAndDeleted :
    (let s := stored [(1, live16)]
     let q : DefineRegionReq := ⟨63, 0, 0, 16, 16, none⟩
     s.takes (.defineRegion 1 q) [] ∧ s.fsc.store = .ready ∧ s.fsc.showLock = false ∧ q.id ≤ 63 ∧
      RegionKind.ofCode q.kind = some .still ∧ protectOf .still q.protect = some true ∧ 16 ≤ q.width ∧ q.width ≤ 4096 ∧
      16 ≤ q.height ∧ q.height ≤ 2160 ∧ s.region q.id = none ∧ q.base + 1 ≤ s.fsc.pageTotal ∧
      ∀ e ∈ s.fsc.regions, q.base + 1 ≤ e.2.base ∨ e.2.base + e.2.pages ≤ q.base) ∧
    (∀ r : Region, r = still16 ∨ r = { still16 with posted := 1 } ∨ r = { still16 with air := 1 } →
      let s := stored [(0, r)]
      s.fsc.store = .ready ∧ s.fsc.showLock = false ∧ 0 ≤ 63 ∧ s.region 0 = some r ∧ s.takes (.deleteRegion 1 0) [] ∧
        s.lip.bound ≠ some 0 ∧ (holding .drain (asked (.deleteRegion 1 0) [] s)).lkd.hold = .drain ∧
        (holding .drain (asked (.deleteRegion 1 0) [] s)).lkd.requests = .command (.deleteRegion 1 0) :: []) := by
  refine ⟨⟨takes_idle _ _ rfl rfl, ?_⟩, ?_⟩
  · decide +kernel
  · rintro r (rfl | rfl | rfl) <;>
      exact ⟨rfl, rfl, by decide, rfl, takes_idle _ _ rfl rfl, by decide, rfl, rfl⟩

theorem test_witness_ShowLockSetAndRefusals : s0.takes (.setShowLock 1) [] ∧ lockRefused (.deleteRegion 1 0) = true ∧
    requestParts (.deleteRegion 1 0) = some (0x21, 1, [0]) ∧ (lockedShow s1).takes (.deleteRegion 1 0) [] ∧
    (lockedShow s0).takes (.deleteRegion 1 0) [] ∧ (lockedShow s1).fsc.showLock = true :=
  ⟨takes_idle _ _ rfl rfl, rfl, rfl, takes_idle _ _ rfl rfl, takes_idle _ _ rfl rfl, rfl⟩

theorem test_witness_ShowLockStays : (lockedShow s0).lockHolds ∧ (lockedShow s0).fsc.showLock = true ∧
    step (lockedShow s0) = .next (lockedShow s0) ∧
    ∀ r rest, (lockedShow s0).pending ≠ .powerOn r :: rest ∧ (lockedShow s0).pending ≠ .resetPin r :: rest := by
  refine ⟨fun _ => ⟨nofun, nofun⟩, rfl, rfl, fun r rest => ⟨nofun, nofun⟩⟩

theorem test_witness_WritesAndFillsPosted :
    (let q : WriteContentReq := ⟨0, 255, [7]⟩
     s1.takes (.writeContent 1 q) [] ∧ s1.fsc.store = .ready ∧ q.region ≤ 63 ∧ q.pixels ≠ [] ∧
      s1.region q.region = some still16 ∧ s1.lip.bound ≠ some q.region ∧
      q.offset + q.pixels.length ≤ still16.width * still16.height ∧ ¬(still16.protect = true ∧ 0 < still16.air)) ∧
    writeFailing ⟨0, 256, [7]⟩ s1 = some .range ∧ fillFailing ⟨0, ⟨0, 0, 17, 16⟩, ⟨0, 0, 0⟩⟩ s1 = some .range ∧
    (let q : FillRegionReq := ⟨0, ⟨0, 0, 16, 16⟩, ⟨1023, 1023, 1023⟩⟩
     s1.takes (.fillRegion 1 q) [] ∧ q.colour.r ≤ 1023 ∧ 0 < q.rect.width ∧ 0 < q.rect.height ∧
      s1.region q.region = some still16 ∧ q.rect.x + q.rect.width ≤ still16.width ∧
      q.rect.y + q.rect.height ≤ still16.height) ∧
    (let s := holding .place (asked (.writeContent 1 ⟨0, 255, [7]⟩) [] s1)
     s.lkd.hold = .place ∧ s.fsc.posting.length < 8 ∧ s.lkd.requests = .command (.writeContent 1 ⟨0, 255, [7]⟩) :: [] ∧
      writeFailing ⟨0, 255, [7]⟩ s = none) ∧
    (let f : FillRegionReq := ⟨0, ⟨0, 0, 16, 16⟩, ⟨1023, 1023, 1023⟩⟩
     let s := holding .place (asked (.fillRegion 1 f) [] s1)
     s.lkd.hold = .place ∧ s.fsc.posting.length < 8 ∧ s.lkd.requests = .command (.fillRegion 1 f) :: [] ∧
      fillFailing f s = none) := by
  refine ⟨⟨takes_idle _ _ rfl rfl, ?_⟩, ?_, ?_, ⟨takes_idle _ _ rfl rfl, ?_⟩, ?_, ?_⟩ <;> decide +kernel

/-- The regions with one entry posted. -/
def posting (e : PostEntry) (r : Region) : State :=
  (stored [(0, r)]).setFsc { (stored [(0, r)]).fsc with posting := [e] }

theorem test_witness_BurstsWrittenOrDiscarded :
    (∀ e : PostEntry, e = ⟨0, .write 0 [7], 0⟩ ∨ e = ⟨0, .fill ⟨0, 0, 16, 16⟩ ⟨1, 2, 3⟩, 0⟩ →
      let s := posting e { still16 with posted := 1 }
      s.fsc.posting = e :: [] ∧ s.region e.region = some { still16 with posted := 1 } ∧
        s.fsc.inStore { still16 with posted := 1 } = true ∧ s.lip.bound ≠ some e.region ∧
        e.total ≤ e.done + (e.burst still16).length) ∧
    (let r : Region := ⟨.still, 0, 32, 16, true, 1, 1, 0, 0, 1⟩
     let e : PostEntry := ⟨0, .fill ⟨0, 0, 32, 16⟩ ⟨1, 2, 3⟩, 0⟩
     (posting e r).fsc.posting = e :: [] ∧ (posting e r).region 0 = some r ∧ e.done + (e.burst r).length < e.total) ∧
    (let r : Region := { still16 with air := 1, posted := 1 }
     (posting ⟨0, .write 0 [7], 0⟩ r).region 0 = some r ∧ r.protect = true ∧ 0 < r.air) ∧
    (let s := (s1.setFsc { s1.fsc with posting := [⟨1, .write 0 [7], 0⟩] }).setLip { s1.lip with bound := some 1 }
     s.fsc.posting = [⟨1, .write 0 [7], 0⟩] ∧ s.region 1 = some live16 ∧
      ¬(live16.protect = true ∧ 0 < live16.air) ∧ s.lip.bound = some 1) := by
  refine ⟨?_, by decide +kernel, by decide +kernel, by decide +kernel⟩
  rintro e (rfl | rfl) <;> decide +kernel

theorem test_witness_ContentReadAtItsTurn : (⟨some (0, 1), 0⟩ : Asks).scan ≠ none ∧ 0 < (⟨none, 1⟩ : Asks).live ∧
    (posting ⟨0, .write 0 [7], 0⟩ still16).fsc.posting ≠ [] ∧
    (let q : ReadContentReq := ⟨0, 1, 255⟩
     s1.region q.region = some still16 ∧ s1.takes (.readContent 1 q) [] ∧ s1.fsc.store = .ready ∧ q.region ≤ 63 ∧
      0 < q.count ∧ q.offset + q.count ≤ still16.width * still16.height) ∧
    (let s := holding .readDrain (asked (.readContent 1 ⟨0, 1, 255⟩) [] s1)
     s.lkd.hold = .readDrain ∧ s.lkd.requests = .command (.readContent 1 ⟨0, 1, 255⟩) :: []) ∧
    (let s := holding .readGrant (asked (.readContent 1 ⟨0, 1, 255⟩) [] s1)
     s.lkd.hold = .readGrant ∧ s.lkd.requests = .command (.readContent 1 ⟨0, 1, 255⟩) :: [] ∧
      (⟨none, 0⟩ : Asks).scan = none ∧ s.fsc.posting = [] ∧ s.fsc.inStore still16 = true) := by
  refine ⟨by decide, by decide, by decide +kernel, ⟨rfl, takes_idle _ _ rfl rfl, ?_⟩, by decide +kernel,
    by decide +kernel⟩
  decide +kernel

theorem test_witness_LiveInputBound : s1.takes (.setLiveInput 1 (some 1)) [] ∧ s1.fsc.showLock = false ∧
    (∀ id, some 1 = some id → id ≤ 63 ∧ ∃ r, s1.region id = some r ∧ r.kind = .live ∧
      (s1.lip.bound = some id ∨ r.air = 0)) ∧
    some 1 ≠ s1.lip.bound ∧ s1.airOf s1.lip.bound = 0 ∧ s1.takes (.setLiveInput 1 none) [] ∧ none = s1.lip.bound ∧
    (let s := (stored [(1, { live16 with air := 1 })]).setLip { s1.lip with bound := some 1, port := .searching }
     s.takes (.setLiveInput 1 none) [] ∧ none ≠ s.lip.bound ∧ 0 < s.airOf s.lip.bound) := by
  refine ⟨takes_idle _ _ rfl rfl, rfl, ?_, by decide, rfl, takes_idle _ _ rfl rfl, rfl, takes_idle _ _ rfl rfl, by
    decide,
    by decide⟩
  rintro id ⟨⟩
  exact ⟨by decide, live16, rfl, rfl, .inr rfl⟩

/-- The live input bound to region 1, in a state and a capture phase. -/
def feeding (p : LiveState) (c : Capture) : State :=
  s1.setLip { s1.lip with bound := some 1, port := p, writer := some 0, capture := c }

/-- The same with pixels waiting. -/
def feedingPixels (p : LiveState) (c : Capture) (queue : List CapturePixel) : State :=
  (feeding p c).setLip { (feeding p c).lip with queue := queue }

theorem test_witness_InputFrameCompletes :
    (let s := feedingPixels .searching ⟨.received, 15, 16⟩ [⟨0, 254, 7⟩, ⟨0, 255, 8⟩]
     s.lip.capture.phase = .received ∧ s.lip.bound.bind s.region = some live16 ∧ s.fsc.inStore live16 = true ∧
      s.lip.writer = some 0 ∧ s.lip.queue ≠ [] ∧ lineRun 16 s.lip.queue.length s.lip.queue = s.lip.queue ∧
      s.lip.queue.getLast? = some ⟨0, 255, 8⟩ ∧ s.lip.earlier < s.lip.queue.length ∧
      (s.fsc.pixelAddr live16 0 255).isSome = true ∧
      [0, 1, 2].find? (fun b => decide (b ≠ 0) && !s.lip.latched b) = some 1 ∧ s.lip.port = .searching ∧
      s.lip.consecutive = 0) ∧
    (let s := feedingPixels .running ⟨.received, 15, 16⟩ [⟨0, 239, 7⟩, ⟨0, 240, 8⟩]
     s.lip.port ≠ .searching ∧ s.lip.queue ≠ [] ∧ lineRun 16 s.lip.queue.length s.lip.queue ≠ s.lip.queue) ∧
    (let s0 := feedingPixels .searching ⟨.received, 15, 16⟩ [⟨0, 255, 8⟩]
     let s := s0.setLip { s0.lip with
       consecutive := 1, latch := put (put s0.lip.latch 0 (some ⟨1, .frame⟩)) 15 (some ⟨2, .held⟩) }
     [0, 1, 2].find? (fun b => decide (b ≠ 0) && !s.lip.latched b) = none ∧ 1 ≤ s.lip.consecutive ∧
      s.lip.capture.phase = .received) ∧
    (∀ c, c = .started ∨ c = .line ∨ c = .received → (feeding .running ⟨c, 15, 16⟩).lip.capture.phase = c ∧
      (feeding .running ⟨c, 15, 16⟩).lip.port = .running ∧ (feeding .lost ⟨c, 15, 16⟩).lip.port = .lost) := by
  refine ⟨by decide +kernel, by decide +kernel, by decide +kernel, ?_⟩
  rintro c (rfl | rfl | rfl) <;> decide +kernel

theorem test_witness_CaptureEvents : s0.lip.port = .off ∧
    ((feeding .running ⟨.over, 0, 0⟩).lip.port = .running ∧ (feeding .running ⟨.over, 0, 0⟩).lip.capture.phase =
      .over) ∧
    ((feeding .lost ⟨.idle, 0, 0⟩).lip.port = .lost ∧ (feeding .lost ⟨.idle, 0, 0⟩).lip.capture.phase = .idle) ∧
    (feeding .running ⟨.line, 15, 15⟩).lip.bound.bind (feeding .running ⟨.line, 15, 15⟩).region = some live16 ∧
    (feeding .running ⟨.started, 0, 0⟩).lip.capture.phase = .started ∧
    live16.width ≤ (feeding .running ⟨.line, 0, 16⟩).lip.capture.pixel ∧
    (feeding .running ⟨.line, 0, 15⟩).lip.capture.pixel < live16.width := by
  decide +kernel

theorem test_witness_FeedLostAtFourthBoundary :
    (let s0 := feeding .running ⟨.line, 0, 0⟩
     let s := s0.setLip { s0.lip with silence := 3 }
     s.rtu.gen ≠ .locked ∧ s.lip.port = .running ∧ s.lip.silence = 3 ∧
      ¬(s.lip.capture.phase = .received ∧ s.lip.queue = [])) := by
  decide +kernel

theorem test_witness_WallDefined :
    (let q : DefineWallReq := ⟨3, 7680, 1092, 8, ⟨1023, 1023, 1023⟩⟩
     s0.takes (.defineWall 1 q) [] ∧ s0.fsc.showLock = false ∧ q.wall ≤ 3 ∧ 16 ≤ q.width ∧ q.width ≤ 7680 ∧
      16 ≤ q.height ∧ q.height ≤ 4320 ∧ 1 ≤ q.refresh ∧ q.refresh ≤ 8 ∧ q.background.r ≤ 1023 ∧
      q.background.g ≤ 1023 ∧ q.background.b ≤ 1023 ∧ s0.wall q.wall = none ∧
      s0.areas + q.width * q.height ≤ 8388608) := by
  refine ⟨takes_idle _ _ rfl rfl, ?_⟩
  decide +kernel

theorem test_witness_WallDeleted : s3.takes (.deleteWall 1 0) [] ∧ s3.fsc.showLock = false ∧ 0 ≤ 3 ∧
    s3.wall 0 = some shown16 :=
  ⟨takes_idle _ _ rfl rfl, rfl, by decide, rfl⟩

theorem test_witness_LayerAndModeSet :
    (let q : SetLayerReq := ⟨0, 4, some 0, ⟨0, 0, 16, 16⟩, -8192, 8191⟩
     s2.takes (.setLayer 1 q) [] ∧ q.wall ≤ 3 ∧ 1 ≤ q.layer ∧ q.layer ≤ 4 ∧ s2.wall q.wall = some wall16 ∧
      -8192 ≤ q.px ∧ q.px ≤ 8191 ∧ -8192 ≤ q.py ∧ q.py ≤ 8191 ∧
      ∀ id, q.source = some id → id ≤ 63 ∧ ∃ r, s2.region id = some r ∧ 0 < q.rect.width ∧ 0 < q.rect.height ∧
        q.rect.x + q.rect.width ≤ r.width ∧ q.rect.y + q.rect.height ≤ r.height) ∧
    s2.takes (.setWallMode 1 ⟨0, 3, 3, ⟨1, 2, 3⟩⟩) [] ∧ modeOf 3 3 ⟨1, 2, 3⟩ = some (.test, .flat ⟨1, 2, 3⟩) := by
  refine ⟨⟨takes_idle _ _ rfl rfl, by decide, by decide, by decide, rfl, by decide, by decide, by decide, by decide,
    ?_⟩,
    takes_idle _ _ rfl rfl, rfl⟩
  rintro id ⟨⟩
  exact ⟨by decide, still16, rfl, by decide, by decide, by decide, by decide⟩

theorem test_witness_FreezeHoldsAndReleases : s2.wall 0 = some wall16 ∧ wall16.pending = none ∧
    (∀ m, m = .freeze ∨ m = .normal →
      (s2.setWse { s2.wse with walls := [(0, { wall16 with pending := some (m, .bars75) })] }).wall 0 =
        some { wall16 with pending := some (m, .bars75) }) ∧
    wall16.mode ≠ .freeze ∧ ({ wall16 with mode := .freeze } : Wall).mode = .freeze ∧
    ((s0.setWse { s0.wse with walls := [(3, wall16)] }).wall 3 = some wall16 ∧ 3 ≤ 3 ∧ 15 < 16 ∧ 15 / 4 = 3) :=
  ⟨rfl, rfl, fun _ _ => rfl, nofun, rfl, rfl, by decide, by decide, by decide⟩

/-- A frame whose layer 2 is shed. -/
def shedFrame : FrameParams :=
  ⟨.normal, .bars75, put (Vector.replicate 4 FrameLayer.none_) 1 { FrameLayer.none_ with admission := .shed }, 65535⟩

theorem test_witness_AdmissionWithinLoadBudget :
    (let x : Wall := { wall16 with frame := some shedFrame }
     let s := s0.setWse { s0.wse with walls := [(0, x)] }
     s.wall 0 = some x ∧ x.shedding = false ∧ x.frame = some shedFrame ∧ 2 ≤ 4 ∧
      (at_ shedFrame.layers 1 FrameLayer.none_).admission = .shed ∧
      (at_ shedFrame.layers 0 FrameLayer.none_).admission ≠ .shed) ∧
    (shown16.shedLayers = [] ∧ s3.wall 0 = some shown16) ∧
    (let walls := (settleFrames (s3.setWse { s3.wse with walls := [(0, shown16), (3, shown16)] })).wse.walls
     s3.areas ≤ 8388608 ∧ walls.map (fun e => (e.1, e.2.frame.isSome)) = [(0, true), (3, true)] ∧ 1 ≤ 4) ∧
    ({ FrameLayer.none_ with admission := .shed } : FrameLayer).admission ≠ .admitted ∧ s3.areas ≤ 8388608 ∧
    (s0.setWse { s0.wse with walls := [(0, { wall16 with width := 4096, height := 2048 })] }).areas = 8388608 := by
  decide +kernel

theorem test_witness_TilesPlacedAndRemoved : s3.fsc.showLock = false ∧
    (let q : SetTileReq := ⟨255, 0, 0, 31, ⟨0, 0, 16, 16⟩, 1⟩
     s3.takes (.setTile 1 q) [] ∧ q.tile ≤ 255 ∧ q.wall ≤ 3 ∧ q.chain ≤ 7 ∧ q.position ≤ 31 ∧ 16 ≤ q.rect.width ∧
      q.rect.width ≤ 256 ∧ q.rect.width % 16 = 0 ∧ 16 ≤ q.rect.height ∧ q.rect.height ≤ 256 ∧ q.rect.height % 16 = 0 ∧
      Orientation.ofCode q.orientation = some .turned ∧ s3.wall q.wall = some shown16 ∧
      q.rect.x + q.rect.width ≤ shown16.width ∧ q.rect.y + q.rect.height ≤ shown16.height ∧
      ∀ e ∈ s3.wse.tiles, e.1 ≠ q.tile → e.2.chain = q.chain → e.2.wall = q.wall ∧ e.2.position ≠ q.position) ∧
    s3.takes (.removeTile 1 0) [] ∧ s3.wse.tiles.find 0 = some tile16 := by
  refine ⟨rfl, ⟨takes_idle _ _ rfl rfl, ?_⟩, takes_idle _ _ rfl rfl, rfl⟩
  decide +kernel

theorem test_witness_CorrectionsAndZonesWritten : s3.fsc.showLock = false ∧
    s3.takes (.setCorrection 1 ⟨0, some 8192, none, some 8191, some 256, some 1024⟩) [] ∧
    s3.wse.tiles.find 0 = some tile16 ∧
    (let q : DefineZoneReq := ⟨7, some 0, ⟨15, 15, 1, 1⟩⟩
     s3.takes (.defineZone 1 q) [] ∧ q.zone ≤ 7 ∧ q.wall = some 0 ∧ s3.wall 0 = some shown16 ∧ 0 < q.rect.width ∧
      0 < q.rect.height ∧ q.rect.x + q.rect.width ≤ shown16.width ∧ q.rect.y + q.rect.height ≤ shown16.height) ∧
    s3.takes (.defineZone 1 ⟨0, none, ⟨0, 0, 0, 0⟩⟩) [] := by
  refine ⟨rfl, takes_idle _ _ rfl rfl, rfl, ⟨takes_idle _ _ rfl rfl, ?_⟩, takes_idle _ _ rfl rfl⟩
  decide +kernel

/-- Chain 0 as given. -/
def chained (x : Chain) : State := s3.setWse { s3.wse with chains := put s3.wse.chains 0 x }

theorem test_witness_ChainsAreJudged :
    (∀ m : Nat, m = 1 ∨ m = 2 →
      let x := (chained { Chain.reset with state := .ok, whole := true, misses := m, sent := some 9 }).chain 0
      x.whole = true ∧ x.state = .ok ∧ x.misses = m ∧ ¬(x.sent ≠ none ∧ x.sent.map (fun w => [w]) = some x.returned)) ∧
    (∀ m : Nat, m = 1 ∨ m = 2 →
      let x := (chained { Chain.reset with
        state := .fault, whole := true, echoes := m, sent := some 9, returned := [9] }).chain 0
      x.whole = true ∧ x.state = .fault ∧ x.echoes = m ∧ (x.sent ≠ none ∧ x.sent.map (fun w => [w]) = some
        x.returned)) ∧
    (s0.chain 7).state = .idle ∧ 7 < 8 := by
  refine ⟨?_, ?_, by decide +kernel, by decide⟩ <;> rintro m (rfl | rfl) <;> decide +kernel

theorem test_witness_BlendRule : (16384 ≤ 65535 ∧ 400 ≤ 900 ∧ 900 ≤ 1023) ∧ 200 < 800 ∧ 65535 ≤ 65535 ∧
    FrameLayer.none_.opacity = 0 ∧ FrameLayer.none_.admission ≠ .admitted ∧
    s0.offer 0 1 FrameLayer.none_ 0 0 = none ∧ (∀ l ∈ List.replicate 4 FrameLayer.none_, l.opacity ≤ 65535) := by
  decide +kernel

theorem test_witness_PixelPathToTiles :
    (∀ (id : Nat) (r : Region), id = 0 ∧ r = still16 ∨ id = 1 ∧ r = live16 →
      let l : FrameLayer := ⟨⟨some id, ⟨0, 0, 16, 16⟩, -15, 0⟩, 65535, none, some r, 16, .admitted⟩
      l.admission = .admitted ∧ l.layer.source = some id ∧ l.region = some r ∧
      (l.layer.px ≤ (0 : Nat) ∧ ((0 : Nat) : Int) < l.layer.px + l.layer.rect.width ∧ l.layer.py ≤ (15 : Nat) ∧
        ((15 : Nat) : Int) < l.layer.py + l.layer.rect.height) ∧
      ¬((1 : Nat) : Int) < l.layer.px + l.layer.rect.width) ∧
    (still16.kind = .still ∧ live16.kind = .live ∧ s1.lip.bound ≠ some 1 ∧
      (feeding .running ⟨.idle, 0, 0⟩).lip.bound = some 1) ∧
    (∀ m : WallMode, m = .normal ∨ m = .freeze ∨ m = .test ∨ m = .blank →
      ({ testing .bars75 with mode := m } : FrameParams).mode = m) ∧
    (let t : Tile := ⟨0, 0, 0, ⟨128, 0, 64, 32⟩, .normal, Correction.unity⟩
     2047 < t.rect.width * t.rect.height ∧ t.orientation = .normal ∧
      t.canvasPixel 2047 = t.canvasPixel 2047) ∧
    (let t : Tile := ⟨0, 0, 0, ⟨128, 0, 64, 32⟩, .turned, Correction.unity⟩
     2047 < t.rect.width * t.rect.height ∧ t.canvasPixel 0 = (191, 31)) ∧
    (∀ x : Nat, x = 250 ∨ x = 374 → 2 * 1000 / 8 ≤ x ∧ x < 3 * 1000 / 8) := by
  refine ⟨?_, ⟨rfl, rfl, by decide, rfl⟩, fun _ _ => rfl, by decide, by decide, ?_⟩
  · rintro id r (⟨rfl, rfl⟩ | ⟨rfl, rfl⟩) <;> decide +kernel
  · rintro x (rfl | rfl) <;> decide

theorem test_witness_UpperAccessesGranted :
    (let f : FrameParams := ⟨.normal, .bars75, Vector.replicate 4 FrameLayer.none_, 65535⟩
     (⟨some (0, 256), 0⟩ : Asks).scan = some (0, 256) ∧ s3.wall 0 = some shown16 ∧ shown16.frame = some f ∧
      s3.framePages f = true) ∧
    (∀ c, c = .line ∨ c = .received →
      let s := feedingPixels .running ⟨c, 15, 16⟩ [⟨0, 254, 6⟩, ⟨0, 255, 7⟩]
      (⟨none, 2⟩ : Asks).scan = none ∧ 0 < (⟨none, 2⟩ : Asks).live ∧ s.lip.bound.bind s.region = some live16 ∧
       s.fsc.inStore live16 = true ∧ lineRun 16 2 s.lip.queue = s.lip.queue ∧
       (lineRun 16 1 s.lip.queue).length < s.lip.queue.length ∧
       (lineRun 16 2 s.lip.queue)[1]? = some ⟨0, 255, 7⟩ ∧
       (lineRun 16 2 s.lip.queue).getLast? = some ⟨0, 255, 7⟩ ∧ (s.fsc.pixelAddr live16 0 255).isSome = true ∧
       s.lip.capture.phase = c ∧ s.lip.earlier < (lineRun 16 2 s.lip.queue).length ∧
       (lineRun 16 1 s.lip.queue).length ≤ (s.setLip { s.lip with earlier := 1 }).lip.earlier) ∧
    (⟨none, 0⟩ : Asks).live = 0 := by
  refine ⟨by decide +kernel, ?_, rfl⟩
  rintro c (rfl | rfl) <;> decide +kernel

theorem test_witness_LatchInstantSendsPicture :
    (let f : FrameParams := ⟨.normal, .bars75, Vector.replicate 4 FrameLayer.none_, 65535⟩
     s3.wall 0 = some shown16 ∧ shown16.frame = some f ∧ 0 < shown16.refresh ∧ s3.framePages f = true) ∧
    (s3.rtu.tick ≤ (s3.cph.phase * 64 + 0 * 65536 / shown16.refresh) % 65536 ∧ 0 ∉ shown16.reached) ∧
    (0 * 64 + 0 * 65536 / shown16.refresh) % 65536 < (1 : Nat) ∧ 0 ∈ ({ shown16 with reached := [0] } : Wall).reached ∧
    s3.carries 0 0 = true ∧ s3.carries 0 7 = false := by
  decide +kernel

theorem test_witness_ZoneCompletes :
    (let z : Zone := { zone2 with taken := 2, sumR := 2046, sumG := 3, sumB := 0 }
     let s := s3.setWse { s3.wse with zones := [(0, z)] }
     s.wse.zones.find 0 = some z ∧ z.measuring = true ∧ z.raised = false ∧ z.taken = z.rect.width * z.rect.height) ∧
    s3.wse.zones.find 0 = some zone2 ∧ zone2.taken ≠ zone2.rect.width * zone2.rect.height ∧
    (let z : Zone := { zone2 with taken := 2, sumR := 2046, sumG := 3, sumB := 0 }
     let ch : Channel := ⟨.track, 0, .r, 256, 256, 0, 0, 0, false⟩
     let s := (s3.setWse { s3.wse with zones := [(0, z)] }).setFbc (busWith portOn).fbc
     let u := s.setLvp { s.lvp with channels := put s.lvp.channels 101 ch }
     ch.mode ≠ .fade ∧ u.fbc.fixtures.find 0 = some fixture20 ∧ 101 < fixture20.first + fixture20.count ∧
      ((trackChannel 0 z.averages 101 u).channel 101).output = 65472) := by
  decide +kernel

/-- A cue of one action that shows region 0 on layer 1 of wall 0, and the request that stores it. -/
def cueShow : Cue := ⟨.follow 5, [⟨8191, .layerSource 0 1 (some 0) ⟨0, 0, 16, 16⟩ 0 0⟩]⟩
def storeShow : StoreCueReq := ⟨65535, 1, 5, [⟨9000, .layerSource 0 1 (some 0) ⟨0, 0, 16, 16⟩ 0 0⟩]⟩
def withCues (cues : Table Cue) (s : State) : State := s.setCue { s.cue with cues := cues }

theorem test_witness_CuesStoredAndDeleted :
    (s2.takes (.storeCue 1 storeShow) [] ∧ cueOf storeShow = some cueShow ∧
      (∀ a ∈ cueShow.actions, ∀ w, a.action.wall = some w → s2.wall w ≠ none) ∧
      (∀ a ∈ cueShow.actions, ∀ id, a.action.region = some id → s2.region id ≠ none) ∧
      (∀ a ∈ cueShow.actions, a.action.badRect s2 = false) ∧
      (s2.cue.cues.find storeShow.cue = none → s2.cue.cues.length < 200) ∧
      poolUsed s2.cue.cues - (storedActions storeShow.cue s2.cue.cues).length + cueShow.actions.length ≤ 1024 ∧
      storeShow.actions[0]? = some ⟨9000, .layerSource 0 1 (some 0) ⟨0, 0, 16, 16⟩ 0 0⟩) ∧
    (s2.takes (.storeCue 1 ⟨0, 0, 0, []⟩) [] ∧ cueOf ⟨0, 0, 0, []⟩ = none) ∧
    (let s := withCues [(1, cueShow), (2, cueShow)] s2
     s.takes (.deleteCue 1 0) [] ∧ s.takes (.deleteCue 1 3) [] ∧ s.cue.cues.find 3 = none ∧
      s.takes (.deleteCue 1 1) [] ∧ s.cue.cues.find 1 = some cueShow) := by
  refine ⟨⟨takes_idle _ _ rfl rfl, by decide, ?_, ?_, by decide, by decide, by decide, rfl⟩,
    ⟨takes_idle _ _ rfl rfl, by decide⟩,
    takes_idle _ _ rfl rfl, takes_idle _ _ rfl rfl, rfl, takes_idle _ _ rfl rfl, rfl⟩
  · intro a ha w hw
    cases List.mem_singleton.mp ha
    cases hw
    decide
  · intro a ha id hid
    cases List.mem_singleton.mp ha
    cases hid
    decide

/-- A cue engine state around cue 1. -/
def cueing (standby : Option Nat) (pending : Option (Nat × AskSource)) (hold : Bool) (step : Option Nat) : State :=
  let s := withCues [(1, cueShow)] s2
  s.setCue { s.cue with standby := standby, pending := pending, hold := hold, step := step }

/-- The cue engine with active records, and with a standby cue that a camera fires. -/
def firing (active : List Active) : State :=
  let s := withCues [(1, cueShow)] s2
  s.setCue { s.cue with active := active }
def cueTally : Cue := ⟨.tally 7, [⟨0, .masterFade 0 0 0⟩]⟩

theorem test_witness_CueFires :
    (let s := cueing none (some (1, .go)) false none
     s.rtu.gen ≠ .locked ∧ s.cue.pending = some (1, .go) ∧ s.cue.cues.find 1 = some cueShow) ∧
    (let s := firing [⟨2, 0, 1⟩]
     s.cue.cues.find 1 = some cueShow ∧ cueShow.actions ≠ [] ∧ (∀ a ∈ cueShow.actions, 0 < a.delay) ∧
      s.cue.waits.length + cueShow.actions.length ≤ 128 ∧ s.cue.active.length < 16 ∧
      ∀ a ∈ s.cue.active, a.cue ≠ 1 ∧ 0 < a.outstanding) ∧
    (⟨0, .masterFade 0 0 0⟩ : TimedAction).delay = 0 ∧
    128 ≤ (List.replicate 128 (⟨.masterFade 0 0 0, 1, none, 9⟩ : WaitEntry)).length ∧
    ((Action.wallFade 0 0 0 0).wall = some 0 ∧ s0.wall 0 = none ∧ s2.wall 0 = some wall16) ∧
    (let s := firing [⟨2, 0, 1⟩, ⟨1, 0, 1⟩, ⟨3, 0, 1⟩]
     s.cue.active = [⟨2, 0, 1⟩] ++ ⟨1, 0, 1⟩ :: [⟨3, 0, 1⟩] ∧ ∀ b ∈ [(⟨2, 0, 1⟩ : Active)], b.cue ≠ 1) ∧
    (let s := firing (List.replicate 16 ⟨2, 0, 1⟩)
     (∀ b ∈ s.cue.active, b.cue ≠ 1) ∧ 16 ≤ s.cue.active.length ∧
      s.cue.active = ⟨2, 0, 1⟩ :: List.replicate 15 ⟨2, 0, 1⟩) ∧
    (let s := firing [⟨2, 0, 1⟩, ⟨1, 0, 0⟩]
     s.cue.active = [⟨2, 0, 1⟩] ++ ⟨1, 0, 0⟩ :: [] ∧ ∀ b ∈ [(⟨2, 0, 1⟩ : Active)] ++ [], 0 < b.outstanding ∧ b.cue ≠ 1)
      ∧
    (let c : CueEngine := { s0.cue with cues := [(1, cueShow)], standby := some 1, follow := some ⟨0, 5⟩ }
     c.pending = none ∧ 0 < 1 ∧ c.follow.map (·.remaining) = some 0 ∧ c.standby = some 1 ∧
      c.cues.find 1 = some cueShow ∧ cueShow.trigger = .follow 5) ∧
    (let c : CueEngine := { s0.cue with cues := [(1, cueTally)], standby := some 1 }
     c.pending = none ∧ c.follow.map (·.remaining) ≠ some 0 ∧ c.standby = some 1 ∧ c.cues.find 1 = some cueTally ∧
      cueTally.trigger = .tally 7) := by
  decide +kernel

theorem test_witness_CueControlRequests :
    (∀ n : Nat, n = 0 ∨ n = 1 ∨ n = 2 → (cueing none none false none).takes (.standby 1 n) [] ∧
      (cueing none none false none).takes (.goCue 1 n) []) ∧
    ((cueing none none false none).takes (.go 1) [] ∧ (cueing none none false none).cue.standby = none) ∧
    ((cueing (some 1) none false none).takes (.go 1) [] ∧ (cueing (some 1) none false none).cue.standby = some 1) ∧
    (cueing (some 1) (some (1, .go)) false none).takes (.go 1) [] ∧
    ((cueing none none false none).takes (.cancelGo 1) [] ∧ (cueing none none false none).cue.pending = none) ∧
    ((cueing none (some (1, .goCue)) false none).takes (.cancelGo 1) [] ∧
      (cueing none (some (1, .goCue)) false none).cue.pending = some (1, .goCue)) ∧
    (∀ h, (cueing none none h none).takes (.hold 1) [] ∧ (cueing none none h none).takes (.release 1) [] ∧
      (cueing none none h none).takes (.stepFrames 1 251) []) ∧
    (cueing none none true (some 250)).takes (.stepFrames 1 1) [] :=
  ⟨fun _ _ => ⟨takes_idle _ _ rfl rfl, takes_idle _ _ rfl rfl⟩, ⟨takes_idle _ _ rfl rfl, rfl⟩,
    ⟨takes_idle _ _ rfl rfl, rfl⟩, takes_idle _ _ rfl rfl, ⟨takes_idle _ _ rfl rfl, rfl⟩,
    ⟨takes_idle _ _ rfl rfl, rfl⟩,
    fun _ => ⟨takes_idle _ _ rfl rfl, takes_idle _ _ rfl rfl, takes_idle _ _ rfl rfl⟩, takes_idle _ _ rfl rfl⟩

theorem test_witness_LevelRequests :
    (let points := List.replicate 15 65535
     s2.takes (.setCurve 1 3 points) [] ∧ s2.fsc.showLock = false ∧ 1 ≤ 3 ∧ points.length = 15 ∧
      ∀ i, i < 16 → (0 :: points ++ [65535]).getD i 0 ≤ (0 :: points ++ [65535]).getD (i + 1) 0) ∧
    s2.takes (.setCurve 1 0 []) [] ∧
    (let q : FadeReq := ⟨784, 65535, 9000, 3⟩
     s2.takes (.fade 1 q) [] ∧ q.target ≤ 788 ∧ q.level ≤ 65535 ∧ q.curve ≤ 3 ∧
      (∀ w, w ≤ 3 → q.target ∈ wallTargets w → s2.wall w ≠ none) ∧ ∀ x ∈ s2.lvp.manual, x.target ≠ q.target) ∧
    (let m : ManualFade := ⟨784, 1, 1, 0⟩
     let s := s2.setLvp { s2.lvp with manual := [⟨5, 1, 1, 0⟩, m] }
     s.takes (.fade 1 ⟨784, 65535, 9000, 3⟩) [] ∧ s.lvp.manual = [⟨5, 1, 1, 0⟩] ++ m :: [] ∧ m.target = 784 ∧
      ∀ y ∈ [(⟨5, 1, 1, 0⟩ : ManualFade)], y.target ≠ 784) ∧
    (let q : SetChannelReq := ⟨704, 64, 2, 7, 3, 1023, 256⟩
     s2.takes (.setChannel 1 q) [] ∧ 1 ≤ q.count ∧ q.count ≤ 64 ∧ q.first + q.count ≤ 768 ∧ q.zone ≤ 7 ∧
      q.gain ≤ 1023 ∧ 1 ≤ q.smoothing ∧ q.smoothing ≤ 256 ∧ ChannelMode.ofCode q.mode = some .sum ∧
      Component.ofCode q.component = some .y) := by
  refine ⟨⟨takes_idle _ _ rfl rfl, rfl, by decide, rfl, by decide⟩, takes_idle _ _ rfl rfl,
    ⟨takes_idle _ _ rfl rfl, by decide, by decide, by decide, by decide, by decide⟩,
    ⟨takes_idle _ _ rfl rfl, rfl, rfl, by decide⟩, takes_idle _ _ rfl rfl, ?_⟩
  decide

theorem test_witness_FadeArithmetic : at_ Curve.smooth 0 0 = 0 ∧ at_ Curve.smooth 16 0 = 65535 ∧
    (∀ i, i < 16 → at_ Curve.smooth i 0 ≤ at_ Curve.smooth (i + 1) 0) ∧
    (let f : Fade := ⟨10000, 50000, 90, 0, 1, .manual⟩
     89 < f.duration ∧ 0 < f.duration ∧ 0 ≤ 89 ∧ f.start ≤ f.stop ∧
      (s0.setLvp { s0.lvp with fades := [(788, f)] }).lvp.fades.find 788 = some f ∧ 788 ≤ 788 ∧
      f.duration ≤ f.elapsed + 90) ∧
    (let f : Fade := ⟨23333, 0, 45, 0, 0, .manual⟩
     44 < f.duration ∧ f.stop < f.start ∧ (Table.erase 788 [(788, f)]).length < 256 ∧ 0 < 8191 ∧
      ¬(Table.erase 788 ((List.range 256).map (fun i => (i, f)))).length < 256) ∧
    (s0.lvp.manual = [] ∧ ({ s0.lvp with manual := [⟨5, 1, 1, 0⟩] } : Lvp).manual = ⟨5, 1, 1, 0⟩ :: []) := by
  decide +kernel

theorem test_witness_BusSettings : (busWith portOn).fsc.showLock = false ∧
    (∀ q : SetBusReq, q = ⟨0, 1, some 0⟩ ∨ q = ⟨0, 1, some 2⟩ ∨ q = ⟨0, 0, none⟩ ∨ q = ⟨1, 0, some 2⟩ ∨
        q = ⟨1, 1, none⟩ →
      (busWith portOn).takes (.setBus 1 q) [] ∧ (portOfCode q.port).isSome = true ∧
        (boolOfCode q.enable).isSome = true ∧ ∃ rate : Option Nat, q.rate.map rateOfCode = rate.map some) ∧
    ((busWith portOn).port .a).enabled = true ∧ ((busWith portOn).port .b).enabled = false ∧
    (busWith portOn).takes (.setFilter 1 ⟨0, 7, 1023, 1023, 1⟩) [] ∧
    (busWith portOn).takes (.setFilter 1 ⟨0, 8, 0, 0, 1⟩) [] ∧
    (let q : DefineFixtureReq := ⟨191, 1, 511, 752, 16, some 255, some 65535⟩
     (busWith portOn).takes (.defineFixture 1 q) [] ∧ portOfCode q.port = some .b ∧ q.id ≤ 191 ∧ q.address ≤ 511 ∧
      1 ≤ q.count ∧ q.count ≤ 16 ∧ q.first + q.count ≤ 768 ∧ (∀ k, q.keepAlive = some k → 1 ≤ k ∧ k ≤ 255) ∧
      (∀ k, q.silence = some k → k ≤ 65535) ∧
      ∀ e ∈ (busWith portOn).fbc.fixtures, e.1 ≠ q.id → ¬(e.2.port = .b ∧ e.2.address = q.address)) ∧
    (busWith portOn).takes (.deleteFixture 1 0) [] ∧ (busWith portOn).fbc.fixtures.find 0 = some fixture20 ∧
    ((busWith portOn).port .a).dirty.Nodup := by
  refine ⟨rfl, ?_, rfl, rfl, takes_idle _ _ rfl rfl, takes_idle _ _ rfl rfl,
    ⟨takes_idle _ _ rfl rfl, rfl, by decide, by decide, by decide, by decide, by decide, ?_, ?_, by decide⟩,
    takes_idle _ _ rfl rfl, rfl, by decide⟩
  · rintro q (rfl | rfl | rfl | rfl | rfl)
    · exact ⟨takes_idle _ _ rfl rfl, rfl, rfl, some 250, by decide⟩
    · exact ⟨takes_idle _ _ rfl rfl, rfl, rfl, some 1000, by decide⟩
    · exact ⟨takes_idle _ _ rfl rfl, rfl, rfl, none, rfl⟩
    · exact ⟨takes_idle _ _ rfl rfl, rfl, rfl, some 1000, by decide⟩
    · exact ⟨takes_idle _ _ rfl rfl, rfl, rfl, none, rfl⟩
  · rintro k ⟨⟩; decide
  · rintro k ⟨⟩; decide

theorem test_witness_PortsJoinAndRecover :
    ((busWith { portOn with state := .joining }).port .a).state = .joining ∧
    ((busWith portOn).port .a).state ≠ .joining ∧
    (∀ n : Nat, n = 63 ∨ n = 64 → let s := busWith { portOn with state := .detached, txe := 192, quiet := n }
      (s.port .a).state = .detached ∧ (s.port .a).quiet = n ∧ s.fbc.fixtures.find 0 = some fixture20 ∧
        fixture20.port = .a) ∧
    ((busWith portOn).port .b).state ≠ .detached := by
  refine ⟨by decide, by decide, ?_, by decide⟩
  rintro n (rfl | rfl) <;> decide

theorem test_witness_BusSendsAndReceptions :
    (let s := busWith { portOn with state := .passive, txe := 191, lastOwn := true, queue := [⟨0, none, false⟩] }
     (s.port .a).state = .passive ∧ (s.port .a).txe ≤ 191 ∧ (s.port .a).sending = none ∧
      (s.port .a).queue = ⟨0, none, false⟩ :: [] ∧ s.fbc.fixtures.find 0 = some fixture20 ∧ 4 ≤ 14) ∧
    (let s := busWith { portOn with queue := [⟨0, some [0, 0], false⟩] }
     (s.port .a).state = .normal ∧ (s.port .a).sending = some ⟨0, some [0, 0], false⟩ ∧
      (⟨0, some [0, 0], false⟩ : QueueEntry).snapshot = some [0, 0] ∧ s.fbc.fixtures.find 0 = some fixture20 ∧
      fixture20.port = .a) ∧
    (∀ n : Nat, n = 183 ∨ n = 184 → let s := busWith { portOn with
        state := .passive, txe := n, queue := [⟨0, some [0, 0], false⟩] }
      (s.port .a).sending ≠ none ∧ (s.port .a).txe = n ∧ BusErrorKind.missingAck ≠ .check ∧
        ∀ d j, (s.port .a).drive ≠ .mark d j) ∧
    (((busWith { portOn with drive := .mark true 7 }).port .a).drive = .mark true 7 ∧
      (⟨.form, 8, 0, true⟩ : BusFault).recessive < 9 ∧ (⟨.run, 0, 0, false⟩ : BusFault).later = false ∧
      ((busWith { portOn with drive := .mark true 7 }).port .a).sending = none ∧ readBusFrame [] = none ∧
      (readBusFrame (busFrame 5 [])).isSome = true ∧ (⟨8, []⟩ : BusReception).recessive < 9 ∧ 9 ≤ 9) ∧
    (let s := busWith { portOn with rxe := 255, state := .passive }
     (s.port .a).sending = none ∧ (s.port .a).rxe ≤ 255 ∧ BusErrorKind.check ≠ .bit ∧
      BusErrorKind.check ≠ .missingAck ∧ BusErrorKind.form ≠ .bit ∧ BusErrorKind.form ≠ .missingAck) ∧
    ((busWith portOn).port .a).sending = none ∧ (∀ d j, ((busWith portOn).port .a).drive ≠ .mark d j) ∧
    (let b := (busWith portOn).port .a
     ⟨512, 512, true⟩ ∈ b.filters.toList ∧ 532 &&& 512 = 512 &&& 512 ∧ 512 ≤ 532 ∧
      fixtureAt .a (532 - 512) (busWith portOn).fbc.fixtures = some 0 ∧ (2 : Byte).toNat ≤ 2 ∧
      readBusFrame (busFrame 532 [2, 0x80]) = some (532, [2, 0x80])) ∧
    (readBusFrame (busFrame 532 [3, 0]) = some (532, [3, 0]) ∧ 2 < (3 : Byte).toNat ∧
      readBusFrame (busFrame 532 [0]) = some (532, [0]) ∧ readBusFrame (busFrame 512 []) = some (512, []) ∧
      fixtureAt .a (512 - 512) (busWith portOn).fbc.fixtures = none ∧ (512 - 512) ∉ portOn.unknown ∧
      (512 - 512) ∈ ({ portOn with unknown := [0] } : BusPort).unknown) ∧
    (let x : Filter := ⟨0, 0, true⟩
     x ∈ (List.replicate 8 x) ∧ x.enabled = true ∧ 20 &&& x.mask = x.value &&& x.mask ∧ 20 < 512 ∧
      fixtureAt .a 20 (busWith portOn).fbc.fixtures = some 0 ∧ fixtureAt .a 511 (busWith portOn).fbc.fixtures = none ∧
      fixture20.clash = false ∧ readBusFrame (busFrame 511 []) = some (511, [])) ∧
    (∀ x ∈ (List.replicate 8 (⟨0, 0, false⟩ : Filter)), ¬(x.enabled = true ∧ 532 &&& x.mask = x.value &&& x.mask)) := by
  refine ⟨by decide, by decide, ?_, by decide +kernel, by decide, rfl, nofun, by decide +kernel,
    by decide +kernel, by decide +kernel, by decide⟩
  rintro n (rfl | rfl) <;> exact ⟨by decide, by decide, by decide, nofun⟩

theorem test_witness_BusFramesRoundTrip : 1023 < 1024 ∧ (List.replicate 32 (255 : Byte)).length ≤ 32 := by
  decide

/-- Output 15 with a setting and a pending setting. -/
def dimmed (setting : DimmerSetting) (pending : Option DimmerSetting) : State :=
  s0.setDou { outputs := put s0.dou.outputs 15 { Dimmer.reset with setting := setting, pending := pending } }

def dim767 : State := dimmed ⟨some 767, 64, 1023, .activeLow⟩ none
def dimAsk : SetDimmerReq := ⟨15, some (some 767), some 65, some 1024, some 0⟩

theorem dim767_setting : (dim767.dimmer 15).setting = ⟨some 767, 64, 1023, .activeLow⟩ := by decide +kernel
theorem dim767_pending : (dim767.dimmer 15).pending = none := by decide +kernel

theorem test_witness_DimmerOutputs : 15 ≤ 15 ∧
    (dim767.takes (.setDimmer 1 dimAsk) [] ∧ dimAsk.output = 15 ∧ dim767.fsc.showLock = false ∧
      (∀ c, dimAsk.channel = some (some c) → c ≤ 767) ∧
      (∀ c, ((dim767.dimmer 15).pending.getD (dim767.dimmer 15).setting).channel = some c → c ≤ 767) ∧
      keepOr ((dim767.dimmer 15).pending.getD (dim767.dimmer 15).setting).polarity DimmerPolarity.ofCode
        dimAsk.polarity = some .activeHigh) ∧
    ((dim767.dimmer 15).setting.channel = some 767 ∧ 63 < (dim767.dimmer 15).setting.divisor ∧
      (dim767.dimmer 15).setting.minWidth ≤ 65536 / (dim767.dimmer 15).setting.divisor) ∧
    (dim767.rtu.tick ≤ (dim767.cph.phase * 64 + 63 * 1024) % 65536 ∧ 63 ∉ (dim767.dimmer 15).reached) ∧
    (let d : Dimmer := { Dimmer.reset with active := true, ends := 65535, reached := [63] }
     let e : Dimmer := { Dimmer.reset with active := true, ends := 65536 }
     63 ∈ d.reached ∧ d.active = true ∧ d.ends < s0.rtu.endTick ∧ e.active = true ∧ s0.rtu.endTick ≤ e.ends) ∧
    ((s0.dimmer 15).setting.channel = none ∧ (s0.dimmer 15).pending = none) ∧
    ((dimmed DimmerSetting.reset (some DimmerSetting.reset)).dimmer 15).pending ≠ none := by
  rw [dim767_setting, dim767_pending]
  refine ⟨by decide, ⟨takes_idle _ _ rfl rfl, rfl, rfl, ?_, ?_, rfl⟩, ⟨rfl, by decide, by decide⟩, by decide +kernel,
    by decide, by decide +kernel, by decide +kernel⟩
  · intro c h
    cases h
    decide
  · intro c h
    cases h
    decide

/-- A state with one command waiting that changes nothing else while nothing is ready to be sent. -/
def ticked (s : State) : State := { s with pending := [.transmitFrame] }

theorem test_witness_StepKeepsSizesAndForms :
    (let s := ticked (s3.setFsc { s3.fsc with mem := [(12, 0x3F), (13, 1)] })
     s.memoryWf ∧ s.tablesWf ∧ s.bounded ∧ s.phasesInRange ∧ step s = .next { s with pending := [] }) := by
  refine ⟨by unfold State.memoryWf; decide +kernel, ?_, ?_, ?_, rfl⟩
  · unfold State.tablesWf; decide +kernel
  · unfold State.bounded; decide +kernel
  · unfold State.phasesInRange; decide +kernel

theorem test_witness_StepKeepsWriterFree :
    (let s := ticked (feeding .searching ⟨.idle, 0, 0⟩)
     s.writerFree ∧ step s = .next { s with pending := [] }) := by
  refine ⟨⟨by decide, nofun, ?_⟩, rfl⟩
  rintro w ⟨⟩
  decide

theorem test_witness_StepKeepsPortsSettled :
    (let s := ticked (busWith { portOn with state := .passive, txe := 191, rxe := 255 })
     s.portsSettled ∧ step s = .next { s with pending := [] }) := by
  refine ⟨⟨⟨?_, ?_⟩, ⟨?_, ?_⟩⟩, rfl⟩ <;> decide +kernel

/-- Wall 0 in FREEZE with region 0 as the current and the held source of its layer 1; cue 1 and one wait entry each put
region 0 on that layer; one write for it waits in the posting buffer. -/
def named : State :=
  let l : Layer := ⟨some 0, ⟨0, 0, 16, 16⟩, 0, 0⟩
  let a : Action := .layerSource 0 1 (some 0) ⟨0, 0, 16, 16⟩ 0 0
  let s := stored [(0, { still16 with air := 2, ref := 2, posted := 1 })]
  let x : Wall := { wall16 with
    mode := .freeze, layers := #v[l, Layer.none_, Layer.none_, Layer.none_]
    held := some ⟨#v[⟨l, 0, none⟩, ⟨Layer.none_, 0, none⟩, ⟨Layer.none_, 0, none⟩, ⟨Layer.none_, 0, none⟩], 0⟩ }
  { s with
    fsc := { s.fsc with posting := [⟨0, .write 0 [1], 0⟩] }
    wse := { s.wse with walls := [(0, x)] }
    cue := { s.cue with cues := [(1, ⟨.go, [⟨1, a⟩]⟩)], waits := [⟨a, 1, none, 1⟩] } }

theorem named_countsHold : named.countsHold := by
  refine ⟨by unfold State.tablesWf; decide +kernel, fun id => ?_, by decide +kernel, by decide +kernel,
    by decide +kernel, nofun⟩
  by_cases h : id = 0
  · subst h
    decide +kernel
  · have h' : 0 ≠ id := fun e => h e.symm
    refine ⟨?_, ?_, ?_⟩ <;>
      simp [named, stored, State.setFsc, State.region, Table.find, h, h', State.airNames, Wall.airNames, wall16, newWall,
        Layer.none_, State.refNames, State.postedNames, Action.region]

theorem test_witness_StepKeepsRegionCounts :
    ((ticked named).countsHold ∧ step (ticked named) = .next named) ∧
    (let s : State := { named with pending := [.powerOn ⟨3, 0, 0, none⟩] }
     s.countsHold ∧ s.region 0 = some { still16 with air := 2, ref := 2, posted := 1 } ∧
      after (step s) (fun t => t.region 0) = some none) :=
  ⟨⟨named_countsHold, rfl⟩, named_countsHold, rfl, rfl⟩

theorem test_witness_StepKeepsStoreSoundAndNeverStops : (stored [(0, still16)]).storeSound := by
  unfold State.storeSound
  refine ⟨?_, ?_, ?_, ?_, ?_⟩
  · intro h
    exact absurd rfl h
  · intro h
    have h' : StoreState.ready = .sizing := h
    cases h'
  · intro _ p hp
    have h8 : p < 8192 := hp
    simp [Fsc.physPage, stored, State.setFsc, physPageFrom, h8]
  · intro e he
    cases List.mem_singleton.mp he
    exact ⟨rfl, by decide⟩
  · intro e he
    have h' : e ∈ ([] : List (Nat × Wall)) := he
    cases h'

end Sys2Proof.Tests
end

section
/-! SUPPORT. The frame boundary as the statements about the generator see it: the state that the generator acts on, and
what the blocks and the generator leave of it. -/

namespace Sys2Proof.Machine

/-! ## What a boundary does not reach -/

/-- The fields that `State.boundaryKeeps` lists. -/
def State.outsideBoundary (s : State) :=
  (s.fsc.mem, s.fsc.posting, s.fsc.ranks, s.fsc.store, s.fsc.showLock, s.lkd.rx, s.lkd.requests, s.lkd.hold, s.lkd.mask,
    s.lkd.linkErrors, s.pending)

theorem State.boundaryKeeps_iff (s t : State) : s.boundaryKeeps t ↔ t.outsideBoundary = s.outsideBoundary := by
  simp only [State.boundaryKeeps, State.outsideBoundary, Prod.mk.injEq]

theorem raise_outsideBoundary (k : NoticeKind) (d : List Field) (s : State) :
    (raise k d s).outsideBoundary = s.outsideBoundary := by
  let n : Notice := ⟨k, s.rtu.counter, d⟩
  have kept := Lkd.raise_keeps (fun l => (l.rx, l.requests, l.hold, l.mask, l.linkErrors)) (fun _ _ _ => rfl) s.lkd n
  exact congrArg (fun x => (s.fsc.mem, s.fsc.posting, s.fsc.ranks, s.fsc.store, s.fsc.showLock, x.1, x.2.1, x.2.2.1,
    x.2.2.2.1, x.2.2.2.2, s.pending)) kept

theorem takeBoundary_boundaryKeeps (time : Nat) (lines : BitVec 8) (cut : Bool) (gen : State → State)
    (hgen : ∀ s, (gen s).outsideBoundary = s.outsideBoundary) (s : State) :
    s.boundaryKeeps (takeBoundary time lines cut gen s) :=
  (s.boundaryKeeps_iff _).mpr <|
    takeBoundary_keeps State.outsideBoundary (fun _ _ => rfl) (fun _ _ => rfl) (fun _ _ => rfl) (fun _ _ => rfl)
      (fun _ _ _ => rfl) (fun _ _ _ => rfl) (fun _ _ _ => rfl) (fun _ _ => rfl) (fun _ _ => rfl) raise_outsideBoundary
      gen hgen time lines cut s

theorem tickBoundary_boundaryKeeps (lines : BitVec 8) (s : State) : s.boundaryKeeps (tickBoundary lines s) :=
  takeBoundary_boundaryKeeps _ _ _ _ (fun t => by
    rw [endLengthened_keeps State.outsideBoundary (fun _ _ => rfl) raise_outsideBoundary,
      genAtBoundary_keeps State.outsideBoundary (fun _ _ => rfl) raise_outsideBoundary]) s

theorem lateBoundary_boundaryKeeps (lines : BitVec 8) (s : State) : s.boundaryKeeps (lateBoundary lines s) :=
  takeBoundary_boundaryKeeps _ _ _ _ (fun t => by
    rw [endLengthened_keeps State.outsideBoundary (fun _ _ => rfl) raise_outsideBoundary,
      enterHoldover_keeps State.outsideBoundary (fun _ _ => rfl) raise_outsideBoundary]) s

theorem referenceStart_boundaryKeeps (time : Nat) (lines : BitVec 8) (s : State) :
    s.boundaryKeeps (referenceStart time lines s) :=
  (s.boundaryKeeps_iff _).mpr <|
    referenceStart_keeps State.outsideBoundary (fun _ _ => rfl) (fun _ _ => rfl) (fun _ _ => rfl) (fun _ _ => rfl)
      (fun _ _ _ => rfl) (fun _ _ _ => rfl) (fun _ _ _ => rfl) (fun _ _ => rfl) (fun _ _ => rfl) raise_outsideBoundary
      time lines s

/-! ## The generator's entries -/

@[simp] theorem enterGen_rtu (new : GenState) (cause : RefCause) (s : State) :
    (enterGen new cause s).rtu = { s.rtu with gen := new } := rfl

@[simp] theorem enterGen_lkd (new : GenState) (cause : RefCause) (s : State) :
    (enterGen new cause s).lkd = s.lkd.raise ⟨.referenceState, s.rtu.counter,
      [.u2 s.rtu.gen.code, .u2 new.code, .u2 cause.code, .u4 s.rtu.period]⟩ := rfl

/-! ## The state that the generator acts on at a boundary, R5 -/

/-- The frame at `time` has begun, and the zones of the one before are complete. -/
def State.begun (s : State) (time : Nat) : State :=
  (completeZones s).setRtu ((completeZones s).rtu.beginFrame time)

theorem takeBoundary_eq (time : Nat) (lines : BitVec 8) (cut : Bool) (gen : State → State) (s : State) :
    takeBoundary time lines cut gen s = blocksAtBoundary lines cut (gen (s.begun time)) := rfl

@[simp] theorem State.begun_rtu (s : State) (time : Nat) : (s.begun time).rtu = s.rtu.beginFrame time :=
  congrArg (Rtu.beginFrame · time)
    (completeZones_keeps State.rtu (fun _ _ _ => rfl) (fun _ _ _ => rfl) (fun _ _ => rfl) s)

@[simp] theorem State.begun_lkd (s : State) (time : Nat) : (s.begun time).lkd = s.lkd :=
  completeZones_keeps State.lkd (fun _ _ _ => rfl) (fun _ _ _ => rfl) (fun _ _ => rfl) s

theorem blocksAtBoundary_rtu (lines : BitVec 8) (cut : Bool) (s : State) :
    (blocksAtBoundary lines cut s).rtu = s.rtu :=
  blocksAtBoundary_keeps State.rtu (fun _ _ => rfl) (fun _ _ => rfl) (fun _ _ => rfl) (fun _ _ _ => rfl)
    (fun _ _ _ => rfl) (fun _ _ _ => rfl) (fun _ _ => rfl) (fun _ _ => rfl) (fun _ _ _ => rfl) lines cut s

/-- The generator alone decides what a boundary leaves in its unit. -/
@[simp] theorem takeBoundary_rtu (time : Nat) (lines : BitVec 8) (cut : Bool) (gen : State → State) (s : State) :
    (takeBoundary time lines cut gen s).rtu = (gen (s.begun time)).rtu := by
  rw [takeBoundary_eq, blocksAtBoundary_rtu]

/-- The generator's notices come first; the blocks raise theirs after them. -/
theorem takeBoundary_lkd (time : Nat) (lines : BitVec 8) (cut : Bool) (gen : State → State) (s : State) :
    ∃ later : List Notice,
      (takeBoundary time lines cut gen s).lkd = later.foldl Lkd.raise (gen (s.begun time)).lkd := by
  rw [takeBoundary_eq]
  exact blocksAtBoundary_raises lines cut _

end Sys2Proof.Machine
end

section
/-! Line pulses, and which frame pulses are reference frame starts, R1. -/

namespace Sys2Proof.Machine

theorem Rtu.qualifies_progressive (r : Rtu) (p : FramePulse) (h : r.fieldMode = .progressive) :
    r.qualifies p = true := by
  simp only [Rtu.qualifies, h]

theorem Rtu.qualifies_fieldLine (r : Rtu) (p : FramePulse) (h : r.fieldMode = .fieldLine) :
    r.qualifies p = (p.fieldHigh == decide (r.polarity = .normal)) := by
  cases hp : r.polarity <;> simp [Rtu.qualifies, h, hp]

theorem Rtu.qualifies_pulsePhase (r : Rtu) (p : FramePulse) (line period : Nat) (h : r.fieldMode = .pulsePhase)
    (hl : r.lastLine = some line) (hp : r.linePeriod = some period) :
    r.qualifies p = true ↔ 4 * (p.time - line) < period ∨ ∃ d, p.lineAfter = some d ∧ 4 * d < period := by
  cases ha : p.lineAfter <;> simp [Rtu.qualifies, h, hl, hp, ha]

theorem Rtu.qualifies_no_line (r : Rtu) (p : FramePulse) (h : r.fieldMode = .pulsePhase)
    (hl : r.lastLine = none ∨ r.linePeriod = none) : r.qualifies p = false := by
  rcases hl with hl | hl
  · simp [Rtu.qualifies, h, hl]
  · cases hm : r.lastLine <;> simp [Rtu.qualifies, h, hl, hm]

theorem execLinePulse_eq (time : Nat) (s : State) :
    exec (.linePulse time) s = .next (s.setRtu { s.rtu.advance time with
      lastLine := some time, linePeriod := s.rtu.lastLine.map (fun prev => time - prev) }) := by
  show execLinePulse time s = _
  cases h : s.rtu.lastLine <;> simp [execLinePulse, h]

/-- Settles O15: one equation for each field mode. -/
theorem linePulsesAndReferenceStarts : Obligations.LinePulsesAndReferenceStarts :=
  ⟨fun time s => ⟨execLinePulse_eq time s, rfl, rfl, rfl⟩,
   fun r p => ⟨r.qualifies_progressive p, r.qualifies_fieldLine p,
     fun h line period hl hp => r.qualifies_pulsePhase p line period h hl hp, r.qualifies_no_line p⟩⟩

end Sys2Proof.Machine
end

section
/-! SUPPORT. A request at the head of the queue: what its block does commutes with its standing there. -/

namespace Sys2Proof.Machine

variable (s : State) (cmd : Instr) (rest : List QueuedRequest)

theorem Lkd.raise_requests (l : Lkd) (n : Notice) (q : List QueuedRequest) :
    ({ l with requests := q } : Lkd).raise n = { l.raise n with requests := q } := by
  by_cases hp : l.mask.passes n.kind = true
  · by_cases hd : 0 < l.dropped ∧ noticeCount l.ready < 32
    · simp only [Lkd.raise, Lkd.reportDropped, hp, hd, and_self, if_true, Lkd.enter, Lkd.append]
      split <;> rfl
    · simp only [Lkd.raise, Lkd.reportDropped, hp, hd, if_true, if_false, Lkd.enter, Lkd.append]
      split <;> rfl
  · simp only [Lkd.raise, hp, if_false, Bool.false_eq_true]

theorem Lkd.addReply_requests (l : Lkd) (before : Nat) (r : Reply) (q : List QueuedRequest) :
    ({ l with requests := q } : Lkd).addReply before r = { l.addReply before r with requests := q } := by
  by_cases h : l.ready.length = before
  · simp only [Lkd.addReply, h, if_true]
  · simp only [Lkd.addReply, h, if_false]

theorem State.atHead_setRtu (x : Rtu) : (s.atHead cmd rest).setRtu x = (s.setRtu x).atHead cmd rest := rfl

theorem raise_atHead (k : NoticeKind) (d : List Field) :
    raise k d (s.atHead cmd rest) = (raise k d s).atHead cmd rest :=
  congrArg s.setLkd (s.lkd.raise_requests ⟨k, s.rtu.counter, d⟩ (.command cmd :: rest))

/-- The reply takes the request out of the queue. -/
theorem State.repliedFrom_atHead (n : Nat) (tag kind : Byte) (st : Status) (fields : List Field) :
    (s.atHead cmd rest).repliedFrom n tag kind st fields rest = s.repliedFrom n tag kind st fields rest := by
  unfold State.repliedFrom State.atHead
  rw [State.setLkd_lkd, Lkd.addReply_requests]
  rfl

/-- A request carried out by a block that raises notices, whatever stands at the head of the queue. -/
theorem serve_atHead (tag kind : Byte) (handle : State → Answer) (t : State) (st : Status) (fields : List Field)
    (h : s.takes cmd rest) (ha : handle (s.atHead cmd rest) = .reply st fields (t.atHead cmd rest)) :
    serve cmd tag kind handle s = t.repliedFrom s.lkd.ready.length tag kind st fields rest := by
  rw [serve_taken cmd tag kind handle rest s h, ha]
  exact t.repliedFrom_atHead cmd rest _ _ _ _ _

end Sys2Proof.Machine
end

section
/-! SET REFERENCE, R16. -/

namespace Sys2Proof.Machine

/-- The settings that a request asks for, where every code names a value. -/
theorem Rtu.newSettings_eq (r : Rtu) (q : SetReferenceReq) (m : RefMode) (st : Standard) (f : FieldMode)
    (p : FieldPolarity) (hm : keepOr r.mode RefMode.ofCode q.mode = some m)
    (hst : keepOr r.standard Standard.ofCode q.standard = some st)
    (hf : keepOr r.fieldMode FieldMode.ofCode q.fieldMode = some f)
    (hp : keepOr r.polarity FieldPolarity.ofCode q.polarity = some p) :
    r.newSettings q = some { r with
      mode := m, standard := st, fieldMode := f, polarity := p
      holdoverLimit := (q.limit.map (clamp 1 250)).getD r.holdoverLimit } := by
  simp only [Rtu.newSettings, hm, hst, hf, hp]
  cases q.limit <;> rfl

/-- The generator after the re-entry that a change of the settings makes. -/
def Rtu.reentered (r : Rtu) : Rtu :=
  match r.mode with
  | .free => { r with gen := .freerun, acqCount := 0, holdoverCount := 0 }
  | .lock =>
    { r with
      gen := .acquiring, acqCount := 0, holdoverCount := 0, acqOrigin := .freerun, warned := false, gapCount := 0
      acqStarted := false, acqPrev := none }

/-- What the re-entry does: the generator's entry, and its REFERENCE_STATE. -/
theorem reenter_eq (s : State) :
    reenter s = raise .referenceState
      [.u2 s.rtu.gen.code, .u2 s.rtu.reentered.gen.code, .u2 RefCause.settings.code, .u4 s.rtu.period]
      (s.setRtu s.rtu.reentered) := by
  cases h : s.rtu.mode <;> simp only [reenter, Rtu.reentered, h] <;> rfl

theorem reenter_atHead (s : State) (cmd : Instr) (rest : List QueuedRequest) :
    reenter (s.atHead cmd rest) = (reenter s).atHead cmd rest := by
  rw [reenter_eq, reenter_eq s, ← raise_atHead]
  rfl

/-- The state that the settings of `r` leave. -/
def State.resettled (s : State) (r : Rtu) : State :=
  let s1 := s.setRtu { r with prevStart := if r.fieldMode = s.rtu.fieldMode then r.prevStart else none }
  if r.mode ≠ s.rtu.mode ∨ r.standard ≠ s.rtu.standard ∨ r.fieldMode ≠ s.rtu.fieldMode then reenter s1 else s1

theorem State.resettled_atHead (s : State) (r : Rtu) (cmd : Instr) (rest : List QueuedRequest) :
    (s.atHead cmd rest).resettled r = (s.resettled r).atHead cmd rest := by
  simp only [State.resettled, State.atHead_rtu, State.atHead_setRtu, reenter_atHead]
  split <;> rfl

theorem setReference_eq (q : SetReferenceReq) (r : Rtu) (s : State) (hlock : s.fsc.showLock = false)
    (hr : s.rtu.newSettings q = some r) : setReference q s = .reply .ok r.settingFields (s.resettled r) := by
  simp only [setReference, State.resettled, hlock, hr, Bool.or_eq_true, decide_eq_true_eq, ne_eq, ite_not, or_assoc]

theorem exec_setReference (tag : Byte) (q : SetReferenceReq) (rest : List QueuedRequest) (r : Rtu) (s : State)
    (h : s.takes (.setReference tag q) rest) (hlock : s.fsc.showLock = false) (hr : s.rtu.newSettings q = some r) :
    exec (.setReference tag q) s =
      .next ((s.resettled r).repliedFrom s.lkd.ready.length tag 0x10 .ok r.settingFields rest) := by
  have ha := setReference_eq q r (s.atHead (.setReference tag q) rest) hlock hr
  rw [State.resettled_atHead] at ha
  exact congrArg _ (serve_atHead s _ rest tag 0x10 _ _ _ _ h ha)

/-- Settles O14: the settings are written, and where one of the three changed the generator is entered again. -/
theorem setReferenceCarriedOut : Obligations.SetReferenceCarriedOut := by
  intro tag q rest m st f p s htakes hlock hm hst hf hp limit fields
  have hlimit : (q.limit.map (clamp 1 250)).getD s.rtu.holdoverLimit = limit := by
    cases h : q.limit <;> simp only [limit, h] <;> rfl
  have hr := s.rtu.newSettings_eq q m st f p hm hst hf hp
  rw [hlimit] at hr
  rw [exec_setReference tag q rest _ s htakes hlock hr]
  refine ⟨?_, ?_⟩
  · rintro rfl rfl rfl
    rw [State.repliedFrom_answered _ _ _ _ _ _ _ (by simp [State.resettled])]
    simp [State.resettled, fields, Rtu.settingFields]
  · intro hchanged
    refine ⟨_, rfl, ?_, ?_⟩
    · simp only [State.resettled, hchanged, reenter_eq]
      cases m <;> rfl
    · simp only [State.resettled, hchanged, reenter_eq]
      cases m <;> rfl

end Sys2Proof.Machine
end

section
/-! Frame pulses, R1, R2, R6 to R14. -/

namespace Sys2Proof.Machine

/-! ## The pulse and its measurement -/

/-- The clock at the pulse, and the tally lines that it gives. -/
def State.pulsed (s : State) (p : FramePulse) : State :=
  (s.setRtu (s.rtu.advance p.time)).setCph { s.cph with lines := p.tally }

theorem exec_framePulse_starts (p : FramePulse) (s : State) (h : ¬(s.rtu.gen = .locked ∧ s.rtu.lateTime < p.time))
    (hq : (s.pulsed p).rtu.qualifies p = true) :
    exec (.framePulse p) s = .next (referenceStart p.time p.tally (s.pulsed p)) := by
  show execFramePulse p s = _
  simp only [execFramePulse, if_neg h]
  exact if_pos hq

theorem exec_framePulse_passes (p : FramePulse) (s : State) (h : ¬(s.rtu.gen = .locked ∧ s.rtu.lateTime < p.time))
    (hq : (s.pulsed p).rtu.qualifies p = false) : exec (.framePulse p) s = .next (s.pulsed p) := by
  show execFramePulse p s = _
  simp only [execFramePulse, if_neg h]
  exact if_neg (Bool.eq_false_iff.mp hq)

/-- R2: the start is measured. -/
def State.measured (s : State) (t : Nat) : State := s.setRtu (s.rtu.measure t)

theorem referenceStart_free (t : Nat) (lines : BitVec 8) (s : State)
    (hg : s.rtu.gen = .freerun ∨ s.rtu.gen = .holdover) (hm : s.rtu.mode = .free) :
    referenceStart t lines s = s.measured t := by
  rcases hg with hg | hg <;> simp only [referenceStart, hg, hm] <;> rfl

theorem referenceStart_enters (t : Nat) (lines : BitVec 8) (s : State)
    (hg : s.rtu.gen = .freerun ∨ s.rtu.gen = .holdover) (hm : s.rtu.mode = .lock) :
    referenceStart t lines s =
      enterAcquiring (if s.rtu.gen = .freerun then .freerun else .holdover) true .referenceSeen (s.measured t) := by
  rcases hg with hg | hg <;> simp only [referenceStart, hg, hm] <;> rfl

theorem referenceStart_acquiring (t : Nat) (lines : BitVec 8) (s : State) (hg : s.rtu.gen = .acquiring) :
    referenceStart t lines s = acquire t (s.rtu.measured t) lines (s.measured t) := by
  simp only [referenceStart, hg]
  rfl

theorem referenceStart_early (t : Nat) (lines : BitVec 8) (s : State) (hg : s.rtu.gen = .locked)
    (he : s.rtu.tickAt t + 4096 < s.rtu.endTick) : referenceStart t lines s = s.measured t := by
  simp only [referenceStart, hg, Rtu.early, decide_eq_true he, if_true]
  rfl

theorem referenceStart_onTime (t : Nat) (lines : BitVec 8) (s : State) (hg : s.rtu.gen = .locked)
    (he : s.rtu.endTick ≤ s.rtu.tickAt t + 4096) :
    referenceStart t lines s =
      takeBoundary t lines s.rtu.slip.isSome (fun u => endLengthened s.rtu.slip (onTimeStart t u)) (s.measured t) := by
  simp only [referenceStart, hg, Rtu.early, decide_eq_false (Nat.not_lt.mpr he), Bool.false_eq_true, if_false]
  rfl

/-! ## The generator at an on-time start, R12 -/

/-- R11: only the last slip is written. -/
theorem endLengthened_rtu (slip : Option Nat) (s : State) :
    (endLengthened slip s).rtu =
      { s.rtu with lastSlip := slip.elim s.rtu.lastSlip (fun k => (k : Int)) } := by
  cases slip <;> rfl

theorem onTimeStart_rtu (t : Nat) (s : State) :
    (onTimeStart t s).rtu =
      if s.rtu.standard.accepts (t - s.rtu.onTime) = true then
        { s.rtu with period := t - s.rtu.onTime, onTime := t }
      else { s.rtu with gen := .holdover, holdoverCount := 0, onTime := t } := by
  by_cases h : s.rtu.standard.accepts (t - s.rtu.onTime) = true
  · simp only [onTimeStart, h, if_true]
    rfl
  · simp only [onTimeStart, h]
    rfl

theorem onTimeBoundary_rtu (t : Nat) (lines : BitVec 8) (s : State) (hg : s.rtu.gen = .locked)
    (he : s.rtu.endTick ≤ s.rtu.tickAt t + 4096) :
    let r := (referenceStart t lines s).rtu
    let inside := s.rtu.standard.accepts (t - s.rtu.onTime)
    r.counter = s.rtu.counter + 1 ∧ r.tick = 0 ∧ r.onTime = t ∧
      r.gen = (if inside = true then .locked else .holdover) ∧
      r.period = (if inside = true then t - s.rtu.onTime else s.rtu.period) := by
  simp only [referenceStart_onTime t lines s hg he, takeBoundary_rtu, endLengthened_rtu, onTimeStart_rtu,
    State.begun_rtu, State.measured, State.setRtu_rtu, Rtu.beginFrame, Rtu.measure]
  split
  · exact ⟨rfl, rfl, rfl, hg, rfl⟩
  · exact ⟨rfl, rfl, rfl, rfl, rfl⟩

/-- Settles O16: one equation of `referenceStart` for each state of the generator outside an acquisition. -/
theorem framePulseOutsideAcquisition : Obligations.FramePulseOutsideAcquisition := by
  intro p s hlate u measured v
  refine ⟨exec_framePulse_passes p s hlate, ?_, ?_, ?_, ?_⟩
  · intro hq hg hm
    rw [exec_framePulse_starts p s hlate hq, referenceStart_free _ _ (s.pulsed p) hg hm]
    rfl
  · intro hq hg hm
    rw [exec_framePulse_starts p s hlate hq, referenceStart_enters _ _ (s.pulsed p) hg hm]
    exact ⟨_, rfl, rfl, rfl⟩
  · intro hq hg he
    rw [exec_framePulse_starts p s hlate hq, referenceStart_early _ _ (s.pulsed p) hg he]
    rfl
  · intro hq hg he
    obtain ⟨hc, ht, ho, hgen, hp⟩ := onTimeBoundary_rtu p.time p.tally (s.pulsed p) hg he
    exact ⟨_, exec_framePulse_starts p s hlate hq, hc, ht, ho, hgen, hp,
      referenceStart_boundaryKeeps _ _ (s.pulsed p)⟩

end Sys2Proof.Machine
end

section
/-! Acquisition, R6 to R11. -/

namespace Sys2Proof.Machine

/-! ## The count and the warning, R7 and R8 -/

/-- R7 written out: a period out of tolerance counts 0, the first one in tolerance 1, and a later one goes on counting
where it lies within 1/1024 of the period before it. -/
theorem Rtu.countAfter_eq (r : Rtu) (m : Nat) :
    (if r.standard.accepts m = false then 0
      else if r.acqCount = 0 then 1
      else match r.acqPrev with
        | some prev => if prev - prev / 1024 ≤ m ∧ m ≤ prev + prev / 1024 then r.acqCount + 1 else 1
        | none => 1) = r.countAfter m := by
  cases ha : r.standard.accepts m <;> cases hp : r.acqPrev <;> simp [Rtu.countAfter, closeTo, ha, hp]

/-- A count that goes on is of a period in tolerance. -/
theorem Rtu.accepts_of_countAfter (r : Rtu) (m : Nat) (h : 0 < r.countAfter m) : r.standard.accepts m = true := by
  cases ha : r.standard.accepts m
  · simp [Rtu.countAfter, ha] at h
  · rfl

theorem warnStandard_silent (m : Nat) (s : State) (h : s.rtu.standard.accepts m = true ∨ s.rtu.warned = true) :
    warnStandard m s = s :=
  if_pos (Bool.or_eq_true _ _ ▸ h)

/-- What the warning does: its flag, and the notice where it is the first. -/
theorem warnStandard_eq (m : Nat) (s : State) :
    warnStandard m s = { s with
      rtu := { s.rtu with warned := s.rtu.warned || !s.rtu.standard.accepts m }
      lkd := if s.rtu.standard.accepts m = true ∨ s.rtu.warned = true then s.lkd
        else s.lkd.raise ⟨.wrongStandard, s.rtu.counter,
          [.u4 m, .u2 s.rtu.standard.code, .u2 s.rtu.fieldMode.code]⟩ } := by
  by_cases h : s.rtu.standard.accepts m = true ∨ s.rtu.warned = true
  · have hw : (s.rtu.warned || !s.rtu.standard.accepts m) = s.rtu.warned := by rcases h with h | h <;> simp [h]
    rw [warnStandard_silent m s h, if_pos h, hw]
  · have hw : (s.rtu.warned || !s.rtu.standard.accepts m) = true := by
      obtain ⟨ha, -⟩ := not_or.mp h
      simp [ha]
    rw [if_neg h, hw]
    exact if_neg (Bool.or_eq_true _ _ ▸ h)

theorem acquire_first (t m : Nat) (lines : BitVec 8) (s : State) (h : s.rtu.acqStarted = false) :
    acquire t m lines s = s.setRtu { s.rtu with acqStarted := true, gapCount := 0 } := by
  simp [acquire, h]

/-- A start that is not the first of the acquisition is counted. -/
def State.counted (s : State) (m : Nat) : State :=
  s.setRtu { s.rtu with acqCount := s.rtu.countAfter m, acqPrev := some m, gapCount := 0 }

theorem acquire_later (t m : Nat) (lines : BitVec 8) (s : State) (h : s.rtu.acqStarted = true) :
    acquire t m lines s =
      if 8 ≤ s.rtu.countAfter m then lock t m lines (warnStandard m (s.counted m)) else warnStandard m (s.counted m) :=
  if_pos h

theorem acquire_counts (t m : Nat) (lines : BitVec 8) (s : State) (h : s.rtu.acqStarted = true)
    (hc : s.rtu.countAfter m < 8) : acquire t m lines s = warnStandard m (s.counted m) := by
  rw [acquire_later t m lines s h, if_neg (Nat.not_le.mpr hc)]

theorem acquire_locks (t m : Nat) (lines : BitVec 8) (s : State) (h : s.rtu.acqStarted = true)
    (hc : 8 ≤ s.rtu.countAfter m) : acquire t m lines s = lock t m lines (s.counted m) := by
  have ha := s.rtu.accepts_of_countAfter m (by omega)
  rw [acquire_later t m lines s h, if_pos hc, warnStandard_silent m (s.counted m) (.inl ha)]

/-! ## The frame realigned, R10 and R11 -/

theorem lock_at_frame_start (t p : Nat) (lines : BitVec 8) (s : State) (h : s.rtu.tick = 0) :
    lock t p lines s =
      endSlip 0 65536 (enterLocked t p (s.setRtu { s.rtu with baseTime := t, tickBase := 0 })) := by
  simp only [lock, h, if_true]

theorem lock_in_first_half (t p : Nat) (lines : BitVec 8) (s : State) (h : 0 < s.rtu.tick) (h' : s.rtu.tick < 32768) :
    lock t p lines s = enterLocked t p (s.setRtu { s.rtu with
      baseTime := t, tickBase := s.rtu.tick, endTick := 65536 + s.rtu.tick, slip := some s.rtu.tick }) := by
  simp only [lock, Nat.ne_of_gt h, Nat.not_le.mpr h', if_false]

theorem lock_in_second_half (t p : Nat) (lines : BitVec 8) (s : State) (h : 32768 ≤ s.rtu.tick) :
    lock t p lines s = takeBoundary t lines true
      (fun u => endSlip ((s.rtu.tick : Int) - 65536) s.rtu.tick (enterLocked t p u)) s := by
  have h0 : s.rtu.tick ≠ 0 := by omega
  simp only [lock, h0, h, if_true, if_false]

/-- R10: what LOCKED has, wherever in the frame it is entered. -/
theorem lock_generator (t p : Nat) (lines : BitVec 8) (s : State) :
    let r := (lock t p lines s).rtu
    r.gen = .locked ∧ r.period = p ∧ r.acqCount = 0 ∧ r.holdoverCount = 0 ∧ r.onTime = t := by
  by_cases h : s.rtu.tick = 0
  · rw [lock_at_frame_start t p lines s h]
    exact ⟨rfl, rfl, rfl, rfl, rfl⟩
  · by_cases h' : s.rtu.tick < 32768
    · rw [lock_in_first_half t p lines s (Nat.pos_of_ne_zero h) h']
      exact ⟨rfl, rfl, rfl, rfl, rfl⟩
    · rw [lock_in_second_half t p lines s (Nat.le_of_not_lt h'), takeBoundary_rtu]
      exact ⟨rfl, rfl, rfl, rfl, rfl⟩

/-- The REFERENCE_STATE of the entry into LOCKED in the frame numbered `counter`. -/
def acquiredNotice (counter : BitVec 32) (p : Nat) : Notice :=
  ⟨.referenceState, counter,
    [.u2 GenState.acquiring.code, .u2 GenState.locked.code, .u2 RefCause.acquired.code, .u4 p]⟩

/-- The FRAME_SLIP of a frame realigned at once. -/
def slipNotice (counter : BitVec 32) (ticks : Int) (length p : Nat) : Notice :=
  ⟨.frameSlip, counter, [.i2 ticks, .u2 length, .u4 p]⟩

theorem enterLocked_lkd (t p : Nat) (s : State) (hg : s.rtu.gen = .acquiring) :
    (enterLocked t p s).lkd = s.lkd.raise (acquiredNotice s.rtu.counter p) := by
  rw [acquiredNotice, ← hg]
  rfl

/-- R10 and R11: the frame in progress and the notices, by the tick position at entry. -/
theorem lock_frame (t p : Nat) (lines : BitVec 8) (s : State) (hg : s.rtu.gen = .acquiring) :
    let u := lock t p lines s
    (s.rtu.tick = 0 → u.rtu.counter = s.rtu.counter ∧ u.rtu.lastSlip = 0 ∧
      u.lkd = (s.lkd.raise (acquiredNotice s.rtu.counter p)).raise (slipNotice s.rtu.counter 0 65536 p)) ∧
    (0 < s.rtu.tick → s.rtu.tick < 32768 → u.rtu.counter = s.rtu.counter ∧ u.rtu.slip = some s.rtu.tick ∧
      u.rtu.endTick = 65536 + s.rtu.tick ∧ u.lkd = s.lkd.raise (acquiredNotice s.rtu.counter p)) ∧
    (32768 ≤ s.rtu.tick → u.rtu.counter = s.rtu.counter + 1 ∧ u.rtu.tick = 0 ∧
      u.rtu.lastSlip = (s.rtu.tick : Int) - 65536 ∧
      ∃ later : List Notice, u.lkd = later.foldl Lkd.raise
        ((s.lkd.raise (acquiredNotice (s.rtu.counter + 1) p)).raise
          (slipNotice (s.rtu.counter + 1) ((s.rtu.tick : Int) - 65536) s.rtu.tick p))) := by
  refine ⟨fun h => ?_, fun h h' => ?_, fun h => ?_⟩
  · rw [lock_at_frame_start t p lines s h]
    exact ⟨rfl, rfl, congrArg (Lkd.raise · _) (enterLocked_lkd t p _ hg)⟩
  · rw [lock_in_first_half t p lines s h h']
    exact ⟨rfl, rfl, rfl, enterLocked_lkd t p _ hg⟩
  · rw [lock_in_second_half t p lines s h, takeBoundary_rtu]
    have begun : (enterLocked t p (s.begun t)).lkd = s.lkd.raise (acquiredNotice (s.rtu.counter + 1) p) := by
      rw [enterLocked_lkd t p _ (by rw [State.begun_rtu]; exact hg), State.begun_lkd, State.begun_rtu]
      rfl
    obtain ⟨later, hl⟩ := takeBoundary_lkd t lines true
      (fun u => endSlip ((s.rtu.tick : Int) - 65536) s.rtu.tick (enterLocked t p u)) s
    refine ⟨?_, ?_, rfl, later, hl.trans (congrArg (later.foldl Lkd.raise) ?_)⟩
    · show (s.begun t).rtu.counter = _
      rw [State.begun_rtu]
      rfl
    · show (s.begun t).rtu.tick = _
      rw [State.begun_rtu]
      rfl
    · show (enterLocked t p (s.begun t)).lkd.raise (slipNotice (s.begun t).rtu.counter _ _ p) = _
      rw [begun, State.begun_rtu]
      rfl

theorem lock_boundaryKeeps (t p : Nat) (lines : BitVec 8) (s : State) : s.boundaryKeeps (lock t p lines s) :=
  (s.boundaryKeeps_iff _).mpr <|
    lock_keeps State.outsideBoundary (fun _ _ => rfl) (fun _ _ => rfl) (fun _ _ => rfl) (fun _ _ => rfl)
      (fun _ _ _ => rfl) (fun _ _ _ => rfl) (fun _ _ _ => rfl) (fun _ _ => rfl) (fun _ _ => rfl) raise_outsideBoundary
      t p lines s

theorem exec_framePulse_acquiring (p : FramePulse) (s : State) (hg : s.rtu.gen = .acquiring)
    (hq : (s.pulsed p).rtu.qualifies p = true) :
    exec (.framePulse p) s =
      .next (acquire p.time (s.rtu.measured p.time) p.tally ((s.pulsed p).measured p.time)) := by
  have hlate : ¬(s.rtu.gen = .locked ∧ s.rtu.lateTime < p.time) := by simp [hg]
  rw [exec_framePulse_starts p s hlate hq, referenceStart_acquiring _ _ (s.pulsed p) hg]
  rfl

/-- Settles O17, by the count of the start: below 8 it warns and counts on, at 8 it locks by the tick position. -/
theorem acquisitionCountsToLocked : Obligations.AcquisitionCountsToLocked := by
  intro p s hg u measured hq
  let v := (s.pulsed p).measured p.time
  have hexec : exec (.framePulse p) s = .next (acquire p.time measured p.tally v) :=
    exec_framePulse_acquiring p s hg hq
  rw [hexec]
  refine ⟨fun hs => congrArg _ (acquire_first _ _ _ v hs), ?_⟩
  intro hs count
  have hcount : count = v.rtu.countAfter measured := v.rtu.countAfter_eq measured
  clear_value count
  subst hcount
  refine ⟨fun hc => ?_, ?_⟩
  · rw [acquire_counts _ _ _ v hs hc, warnStandard_eq]
    exact ⟨_, rfl, rfl, rfl⟩
  · intro hc locked slip
    let w := v.counted measured
    rw [acquire_locks _ _ _ v hs hc]
    obtain ⟨hgen, hperiod, hacq, hhold, hon⟩ := lock_generator p.time measured p.tally w
    obtain ⟨hstart, hfirst, hsecond⟩ := lock_frame p.time measured p.tally w hg
    exact ⟨_, rfl, hgen, hperiod, hacq, hhold, hon, hstart, hfirst, hsecond, lock_boundaryKeeps _ _ _ w⟩

end Sys2Proof.Machine
end

section
/-! The late limit, the abandoned acquisition and the expired holdover, R9 and R12 to R14. -/

namespace Sys2Proof.Machine

/-! ## Boundaries that begin with notices of the generator -/

/-- Notices that carry the counter `counter`. -/
def noticesAt (counter : BitVec 32) (l : List (NoticeKind × List Field)) : List Notice :=
  l.map (fun n => ⟨n.1, counter, n.2⟩)

/-- The first notices of the boundary from `s` to `t` are these, with the counter of the frame that begins. -/
def State.raisedFirst (s t : State) (notices : List (NoticeKind × List Field)) : Prop :=
  ∃ later : List Notice, t.lkd = (noticesAt (s.rtu.counter + 1) notices ++ later).foldl Lkd.raise s.lkd

/-- R15: REFERENCE_STATE, as a boundary raises it. -/
def changeNotices (old new : GenState) (cause : RefCause) (period : Nat) : List (NoticeKind × List Field) :=
  [(.referenceState, [.u2 old.code, .u2 new.code, .u2 cause.code, .u4 period])]

/-- R11: FRAME_SLIP where the boundary ends a lengthened slip frame. -/
def slipNotices (slip : Option Nat) (period : Nat) : List (NoticeKind × List Field) :=
  slip.elim [] (fun k => [(.frameSlip, [.i2 k, .u2 (65536 + k), .u4 period])])

/-- R11: what the end of a slip frame leaves as the last slip. -/
def Rtu.slipEnded (r : Rtu) (slip : Option Nat) : Rtu :=
  { r with lastSlip := slip.elim r.lastSlip (fun k => (k : Int)) }

theorem endLengthened_lkd (slip : Option Nat) (s : State) :
    (endLengthened slip s).lkd = (noticesAt s.rtu.counter (slipNotices slip s.rtu.period)).foldl Lkd.raise s.lkd := by
  cases slip <;> rfl

/-- What the generator does with the frame that begins at `time`: it leaves `r`, and raises `changes`. -/
def State.turns (s : State) (time : Nat) (g : State → State) (r : Rtu)
    (changes : List (NoticeKind × List Field)) : Prop :=
  r.counter = s.rtu.counter + 1 ∧
    ∀ b : State, b.rtu = s.rtu.beginFrame time → b.lkd = s.lkd →
      (g b).rtu = r ∧ (g b).lkd = (noticesAt (s.rtu.counter + 1) changes).foldl Lkd.raise s.lkd

/-- The whole boundary at which the generator does so, and ends the slip frame that was in progress. -/
theorem State.turns.takeBoundary {s : State} {time : Nat} {g : State → State} {r : Rtu}
    {changes : List (NoticeKind × List Field)} (h : s.turns time g r changes) (lines : BitVec 8) (cut : Bool)
    (slip : Option Nat) :
    let t := Machine.takeBoundary time lines cut (fun u => endLengthened slip (g u)) s
    t.rtu = r.slipEnded slip ∧ s.raisedFirst t (changes ++ slipNotices slip r.period) := by
  obtain ⟨hc, hg⟩ := h
  obtain ⟨hrtu, hlkd⟩ := hg (s.begun time) (s.begun_rtu time) (s.begun_lkd time)
  refine ⟨?_, ?_⟩
  · rw [takeBoundary_rtu, endLengthened_rtu, hrtu]
    rfl
  · obtain ⟨later, hl⟩ := takeBoundary_lkd time lines cut (fun u => endLengthened slip (g u)) s
    refine ⟨later, ?_⟩
    rw [hl, endLengthened_lkd, hlkd, hrtu, hc, noticesAt, noticesAt, noticesAt, List.map_append, List.foldl_append,
      List.foldl_append]

theorem State.turns_enterGen {s : State} {time : Nat} {g : State → State} (old new : GenState) (cause : RefCause)
    (r : Rtu) (hold : r.gen = old) (hc : r.counter = s.rtu.counter + 1)
    (hg : ∀ b : State, b.rtu = s.rtu.beginFrame time → g b = enterGen new cause (b.setRtu r)) :
    s.turns time g { r with gen := new } (changeNotices old new cause r.period) := by
  subst hold
  refine ⟨hc, fun b hr hl => ?_⟩
  rw [hg b hr]
  refine ⟨rfl, ?_⟩
  rw [enterGen_lkd, State.setRtu_lkd, State.setRtu_rtu, hl, hc]
  rfl

theorem State.turns_enterFreerun {s : State} {time : Nat} {g : State → State} (old : GenState) (cause : RefCause)
    (r : Rtu) (hold : r.gen = old) (hc : r.counter = s.rtu.counter + 1)
    (hg : ∀ b : State, b.rtu = s.rtu.beginFrame time → g b = enterFreerun cause (b.setRtu r)) :
    s.turns time g { r with gen := .freerun, period := r.standard.nominal, holdoverCount := 0, acqCount := 0 }
      (changeNotices old .freerun cause r.standard.nominal) :=
  State.turns_enterGen old .freerun cause { r with period := r.standard.nominal, holdoverCount := 0, acqCount := 0 }
    hold hc hg

/-! ## What the generator does, R6, R9, R13, R14 -/

/-- The holdover count reaches its limit in HOLDOVER. -/
theorem genAtBoundary_expires (s : State) (hg : s.rtu.gen = .holdover)
    (h : s.rtu.holdoverLimit ≤ s.rtu.holdoverCount + 1) : genAtBoundary s = enterFreerun .holdoverExpired s := by
  simp only [genAtBoundary, hg, h, if_true]

theorem Rtu.acquiringHoldover_freerun (r : Rtu) (ho : r.acqOrigin = .freerun) : r.acquiringHoldover = r := by
  simp only [Rtu.acquiringHoldover, ho]

theorem Rtu.acquiringHoldover_counts (r : Rtu) (ho : r.acqOrigin = .holdover)
    (h : r.holdoverCount + 1 < r.holdoverLimit) :
    r.acquiringHoldover = { r with holdoverCount := r.holdoverCount + 1 } := by
  simp only [Rtu.acquiringHoldover, ho, Nat.not_le.mpr h, if_false]

theorem Rtu.acquiringHoldover_expires (r : Rtu) (ho : r.acqOrigin = .holdover)
    (h : r.holdoverLimit ≤ r.holdoverCount + 1) :
    r.acquiringHoldover =
      { r with holdoverCount := r.holdoverCount + 1, acqOrigin := .freerun, period := r.standard.nominal } := by
  simp only [Rtu.acquiringHoldover, ho, h, if_true]

/-- R9: the fourth boundary with no start abandons the acquisition. -/
theorem genAtBoundary_acquiring (s : State) (hg : s.rtu.gen = .acquiring) :
    genAtBoundary s =
      let u := s.setRtu { s.rtu.acquiringHoldover with gapCount := s.rtu.acquiringHoldover.gapCount + 1 }
      if 4 ≤ s.rtu.acquiringHoldover.gapCount + 1 then abandonAcquisition u else u := by
  simp only [genAtBoundary, hg]

theorem genAtBoundary_abandons_to_freerun (s : State) (hg : s.rtu.gen = .acquiring) (hn : 3 ≤ s.rtu.gapCount)
    (ho : s.rtu.acqOrigin = .freerun) :
    genAtBoundary s = enterFreerun .abandoned (s.setRtu { s.rtu with gapCount := s.rtu.gapCount + 1 }) := by
  have hn' : 4 ≤ s.rtu.gapCount + 1 := by omega
  rw [genAtBoundary_acquiring s hg, Rtu.acquiringHoldover_freerun _ ho]
  simp only [hn', if_true, abandonAcquisition, State.setRtu_rtu, ho]

theorem genAtBoundary_abandons_to_holdover (s : State) (hg : s.rtu.gen = .acquiring) (hn : 3 ≤ s.rtu.gapCount)
    (ho : s.rtu.acqOrigin = .holdover) (hh : s.rtu.holdoverCount + 1 < s.rtu.holdoverLimit) :
    genAtBoundary s = enterGen .holdover .abandoned (s.setRtu { s.rtu with
      holdoverCount := s.rtu.holdoverCount + 1, gapCount := s.rtu.gapCount + 1, acqCount := 0 }) := by
  have hn' : 4 ≤ s.rtu.gapCount + 1 := by omega
  rw [genAtBoundary_acquiring s hg, Rtu.acquiringHoldover_counts _ ho hh]
  simp only [hn', if_true, abandonAcquisition, State.setRtu_rtu, State.setRtu_setRtu, ho]

theorem genAtBoundary_forgets_holdover (s : State) (hg : s.rtu.gen = .acquiring) (hn : s.rtu.gapCount < 3)
    (ho : s.rtu.acqOrigin = .holdover) (hh : s.rtu.holdoverLimit ≤ s.rtu.holdoverCount + 1) :
    genAtBoundary s = s.setRtu { s.rtu with
      holdoverCount := s.rtu.holdoverCount + 1, acqOrigin := .freerun, period := s.rtu.standard.nominal
      gapCount := s.rtu.gapCount + 1 } := by
  have hn' : ¬4 ≤ s.rtu.gapCount + 1 := by omega
  rw [genAtBoundary_acquiring s hg, Rtu.acquiringHoldover_expires _ ho hh]
  simp only [hn', if_false]

/-! ## The ends -/

variable (lines : BitVec 8) (s : State)

theorem boundaryWhen_due (due : Bool) (hg : s.rtu.gen ≠ .locked) (hd : due = true) :
    boundaryWhen due lines s = tickBoundary lines s := by
  simp [boundaryWhen, State.ticking, hg, hd]

/-- R13. -/
theorem late_turns (hg : s.rtu.gen = .locked) :
    s.turns s.rtu.lateTime (enterHoldover .late)
      { s.rtu.beginFrame s.rtu.lateTime with gen := .holdover, holdoverCount := 0 }
      (changeNotices .locked .holdover .late s.rtu.period) :=
  State.turns_enterGen _ _ .late { s.rtu.beginFrame s.rtu.lateTime with holdoverCount := 0 } hg rfl
    (fun b hr => by rw [enterHoldover, hr])

/-- R9, to FREERUN. -/
theorem abandoned_turns (hg : s.rtu.gen = .acquiring) (hn : 3 ≤ s.rtu.gapCount) (ho : s.rtu.acqOrigin = .freerun) :
    s.turns s.rtu.expectedEnd genAtBoundary
      { s.rtu.beginFrame s.rtu.expectedEnd with
        gapCount := s.rtu.gapCount + 1, gen := .freerun, period := s.rtu.standard.nominal, holdoverCount := 0
        acqCount := 0 }
      (changeNotices .acquiring .freerun .abandoned s.rtu.standard.nominal) :=
  State.turns_enterFreerun _ .abandoned { s.rtu.beginFrame s.rtu.expectedEnd with gapCount := s.rtu.gapCount + 1 } hg
    rfl (fun b hr => by
      rw [genAtBoundary_abandons_to_freerun b (hr ▸ hg) (hr ▸ hn) (hr ▸ ho), hr]
      rfl)

/-- R9, to HOLDOVER. -/
theorem returned_turns (hg : s.rtu.gen = .acquiring) (hn : 3 ≤ s.rtu.gapCount) (ho : s.rtu.acqOrigin = .holdover)
    (hh : s.rtu.holdoverCount + 1 < s.rtu.holdoverLimit) :
    s.turns s.rtu.expectedEnd genAtBoundary
      { s.rtu.beginFrame s.rtu.expectedEnd with
        holdoverCount := s.rtu.holdoverCount + 1, gapCount := s.rtu.gapCount + 1, acqCount := 0, gen := .holdover }
      (changeNotices .acquiring .holdover .abandoned s.rtu.period) :=
  State.turns_enterGen _ _ .abandoned
    { s.rtu.beginFrame s.rtu.expectedEnd with
      holdoverCount := s.rtu.holdoverCount + 1, gapCount := s.rtu.gapCount + 1, acqCount := 0 } hg rfl
    (fun b hr => by
      rw [genAtBoundary_abandons_to_holdover b (hr ▸ hg) (hr ▸ hn) (hr ▸ ho) (hr ▸ hh), hr]
      rfl)

/-- R14. -/
theorem expired_turns (hg : s.rtu.gen = .holdover) (hh : s.rtu.holdoverLimit ≤ s.rtu.holdoverCount + 1) :
    s.turns s.rtu.expectedEnd genAtBoundary
      { s.rtu.beginFrame s.rtu.expectedEnd with
        gen := .freerun, period := s.rtu.standard.nominal, holdoverCount := 0, acqCount := 0 }
      (changeNotices .holdover .freerun .holdoverExpired s.rtu.standard.nominal) :=
  State.turns_enterFreerun _ .holdoverExpired (s.rtu.beginFrame s.rtu.expectedEnd) hg rfl (fun b hr => by
    rw [genAtBoundary_expires b (hr ▸ hg) (hr ▸ hh), ← hr]
    rfl)

/-- R9, the origin HOLDOVER taken away. -/
theorem forgotten_turns (hg : s.rtu.gen = .acquiring) (hn : s.rtu.gapCount < 3) (ho : s.rtu.acqOrigin = .holdover)
    (hh : s.rtu.holdoverLimit ≤ s.rtu.holdoverCount + 1) :
    s.turns s.rtu.expectedEnd genAtBoundary
      { s.rtu.beginFrame s.rtu.expectedEnd with
        holdoverCount := s.rtu.holdoverCount + 1, acqOrigin := .freerun, period := s.rtu.standard.nominal
        gapCount := s.rtu.gapCount + 1 } [] :=
  ⟨rfl, fun b hr hl => by
    rw [genAtBoundary_forgets_holdover b (hr ▸ hg) (hr ▸ hn) (hr ▸ ho) (hr ▸ hh), hr]
    exact ⟨rfl, hl⟩⟩

/-- A boundary that the tick count brings, by what the generator does at it. -/
theorem State.turns.tickBoundary {s : State} {r : Rtu} {changes : List (NoticeKind × List Field)}
    (h : s.turns s.rtu.expectedEnd genAtBoundary r changes) (lines : BitVec 8) :
    let t := Machine.tickBoundary lines s
    t.rtu = r.slipEnded s.rtu.slip ∧ s.raisedFirst t (changes ++ slipNotices s.rtu.slip r.period) ∧
      s.boundaryKeeps t := by
  obtain ⟨hrtu, hraised⟩ := h.takeBoundary lines s.rtu.slip.isSome s.rtu.slip
  exact ⟨hrtu, hraised, tickBoundary_boundaryKeeps lines s⟩

theorem exec_acquisitionAbandoned (hg : s.rtu.gen = .acquiring) (hn : 3 ≤ s.rtu.gapCount) :
    exec (.acquisitionAbandoned lines) s = .next (tickBoundary lines s) := by
  have hn' : 4 ≤ s.rtu.gapCount + 1 := by omega
  show execAcquisitionAbandoned lines s = _
  rw [execAcquisitionAbandoned, boundaryWhen_due lines s _ (by simp [hg]) (by simp [hg, hn'])]

theorem exec_holdoverExpired (hh : s.rtu.holdoverLimit ≤ s.rtu.holdoverCount + 1)
    (hg : s.rtu.gen = .holdover ∨ s.rtu.gen = .acquiring ∧ s.rtu.acqOrigin = .holdover) :
    exec (.holdoverExpired lines) s = .next (tickBoundary lines s) := by
  have hlocked : s.rtu.gen ≠ .locked := by rcases hg with hg | ⟨hg, -⟩ <;> simp [hg]
  show execHoldoverExpired lines s = _
  rw [execHoldoverExpired, boundaryWhen_due lines s _ hlocked (by simpa [Rtu.holdoverEnds, hh] using hg)]

/-- Settles O19: what the generator does at each of the five boundaries, and the boundary around it. -/
theorem generatorLosesReference : Obligations.GeneratorLosesReference := by
  unfold Obligations.GeneratorLosesReference
  intro raised change slipEnd
  have hslip (s : State) (p : Nat) : slipEnd s p = slipNotices s.rtu.slip p := by
    cases h : s.rtu.slip <;> simp only [slipEnd, h] <;> rfl
  refine ⟨fun lines s hg => ?_, fun lines s => ⟨?_, ?_, ?_, ?_⟩⟩
  · obtain ⟨hrtu, hraised⟩ := (late_turns s hg).takeBoundary lines s.rtu.slip.isSome s.rtu.slip
    have hrtu : (lateBoundary lines s).rtu = _ := hrtu
    refine ⟨lateBoundary lines s, if_pos hg, ?_, ?_, ?_, ?_, ?_, hslip s _ ▸ hraised, ?_,
      lateBoundary_boundaryKeeps lines s⟩
    all_goals simp only [hrtu, Rtu.slipEnded, Rtu.beginFrame]
    cases s.rtu.slip <;> rfl
  · intro hg hn ho
    obtain ⟨hrtu, hraised, hkeeps⟩ := (abandoned_turns s hg hn ho).tickBoundary lines
    refine ⟨_, exec_acquisitionAbandoned lines s hg hn, ?_, ?_, ?_, hslip s _ ▸ hraised, hkeeps⟩ <;>
    simp only [hrtu, Rtu.slipEnded, Rtu.beginFrame]
  · intro hg hn ho hh
    obtain ⟨hrtu, hraised, hkeeps⟩ := (returned_turns s hg hn ho hh).tickBoundary lines
    refine ⟨_, exec_acquisitionAbandoned lines s hg hn, ?_, ?_, ?_, ?_, hslip s _ ▸ hraised, hkeeps⟩ <;>
    simp only [hrtu, Rtu.slipEnded, Rtu.beginFrame]
  · intro hg hh
    obtain ⟨hrtu, hraised, hkeeps⟩ := (expired_turns s hg hh).tickBoundary lines
    refine ⟨_, exec_holdoverExpired lines s hh (.inl hg), ?_, ?_, ?_, hslip s _ ▸ hraised, hkeeps⟩ <;>
    simp only [hrtu, Rtu.slipEnded, Rtu.beginFrame]
  · intro hg ho hh hn
    obtain ⟨hrtu, hraised, hkeeps⟩ := (forgotten_turns s hg hn ho hh).tickBoundary lines
    refine ⟨_, exec_holdoverExpired lines s hh (.inr ⟨hg, ho⟩), ?_, ?_, ?_, ?_, hslip s _ ▸ hraised, hkeeps⟩ <;>
    simp only [hrtu, Rtu.slipEnded, Rtu.beginFrame, hg]

end Sys2Proof.Machine
end

section
/-! SUPPORT. The frame parameters that a boundary settles, R81: the admission writes outcomes and nothing else of them,
and the work of the boundary after it leaves them. -/

namespace Sys2Proof.Machine

/-! ## Frame parameters but for their admission -/

/-- The parameters are those of `g`, whatever the admission of each layer. -/
def FrameParams.agrees (f g : FrameParams) : Prop :=
  f.mode = g.mode ∧ f.pattern = g.pattern ∧ f.brightness = g.brightness ∧
    ∀ i, i < 4 → ∃ a, at_ f.layers i FrameLayer.none_ = { at_ g.layers i FrameLayer.none_ with admission := a }

theorem FrameParams.agrees_self (f : FrameParams) : f.agrees f :=
  ⟨rfl, rfl, rfl, fun i _ => ⟨(at_ f.layers i FrameLayer.none_).admission, rfl⟩⟩

/-- The outcome of a layer is written. -/
def FrameParams.withOutcome (f : FrameParams) (layer : Nat) (a : Admission) : FrameParams :=
  { f with layers := put f.layers (layer - 1) ({ at_ f.layers (layer - 1) FrameLayer.none_ with admission := a }) }

theorem FrameParams.withOutcome_agrees (f g : FrameParams) (layer : Nat) (a : Admission) (h : f.agrees g) :
    (f.withOutcome layer a).agrees g := by
  obtain ⟨hmode, hpattern, hbrightness, hlayers⟩ := h
  refine ⟨hmode, hpattern, hbrightness, fun i hi => ?_⟩
  obtain ⟨b, hb⟩ := hlayers i hi
  rw [FrameParams.withOutcome, at_put_read _ _ _ _ _ hi]
  split
  · rename_i he
    subst he
    exact ⟨a, by rw [hb]⟩
  · exact ⟨b, hb⟩

/-- R81: the wall holds, for the frame that begins, its parameters as they stand in `s`, and nothing composed. -/
def State.settledWall (s : State) (e : Nat × Wall) : Prop :=
  e.2.picture = [] ∧ ∃ f, e.2.frame = some f ∧ f.agrees (s.frameParams e.1 e.2)

def State.framesSettled (s : State) : Prop := ∀ e ∈ s.wse.walls, s.settledWall e

/-! ## The admission, R91 -/

theorem admitAcross_settled (s : State) (layer total : Nat) (walls : Table Wall) (h : ∀ e ∈ walls, s.settledWall e) :
    ∀ e ∈ (admitAcross layer total walls).2, s.settledWall e := by
  induction walls generalizing total with
  | nil => exact h
  | cons e rest ih =>
    obtain ⟨w, x⟩ := e
    obtain ⟨hpicture, f, hf, hagrees⟩ := h (w, x) (by simp)
    have hrest (n : Nat) := ih n (fun e he => h e (List.mem_cons_of_mem _ he))
    simp only [admitAcross, show x.frame = some f from hf]
    intro e he
    rcases List.mem_cons.mp he with rfl | he
    · exact ⟨hpicture, _, rfl, f.withOutcome_agrees _ layer _ hagrees⟩
    · exact hrest _ e he

theorem admitAll_settled (s : State) (total : Nat) (walls : Table Wall) (h : ∀ e ∈ walls, s.settledWall e) :
    ∀ e ∈ (admitAll total walls).2, s.settledWall e :=
  admitAcross_settled s 4 _ _ (admitAcross_settled s 3 _ _ (admitAcross_settled s 2 _ _ (admitAcross_settled s 1 _ _ h)))

theorem settleFrames_settled (s : State) : (settleFrames s).framesSettled := by
  refine admitAll_settled s _ _ (fun e he => ?_)
  obtain ⟨old, -, rfl⟩ := List.mem_map.mp he
  exact ⟨rfl, _, rfl, FrameParams.agrees_self _⟩

/-! ## What leaves the frame parameters settled -/

/-- What the frame parameters come from. -/
def State.frameSources (s : State) := (s.wse.walls, s.lvp, s.lip, s.fsc)

theorem State.framesSettled.of_sources {s t : State} (hs : s.framesSettled) (h : t.frameSources = s.frameSources) :
    t.framesSettled := by
  simp only [State.frameSources, Prod.mk.injEq] at h
  obtain ⟨hwalls, hlvp, hlip, hfsc⟩ := h
  have hlevel : t.level = s.level := by funext n; rw [State.level, State.level, hlvp]
  have hlatched : t.latched = s.latched := by funext w i; rw [State.latched, State.latched, hlip]
  have hregion : t.region = s.region := by funext n; rw [State.region, State.region, hfsc]
  have hframe (w : Nat) (x : Wall) : t.frameParams w x = s.frameParams w x := by
    simp only [State.frameParams, State.frameLayer, hlevel, hlatched, hregion]
  intro e he
  rw [hwalls] at he
  obtain ⟨hpicture, f, hf, hagrees⟩ := hs e he
  exact ⟨hpicture, f, hf, hframe e.1 e.2 ▸ hagrees⟩

theorem Table.mem_modify {α : Type} (k : Nat) (f : α → α) (t : Table α) (e : Nat × α) (h : e ∈ t.modify k f) :
    ∃ x, (e.1, x) ∈ t ∧ (e.2 = x ∨ e.2 = f x) := by
  induction t with
  | nil => cases h
  | cons e' rest ih =>
    obtain ⟨j, y⟩ := e'
    rcases List.mem_cons.mp h with rfl | h
    · refine ⟨y, by simp, ?_⟩
      by_cases hk : k = j
      · exact .inr (if_pos hk)
      · exact .inl (if_neg hk)
    · obtain ⟨x, hx, hfx⟩ := ih h
      exact ⟨x, List.mem_cons_of_mem _ hx, hfx⟩

theorem modWall_setShed_settled (w : Nat) (b : Bool) (s : State) (hs : s.framesSettled) :
    (modWall w (fun y => y.setShed b) s).framesSettled := by
  intro e he
  obtain ⟨x, hx, h⟩ := Table.mem_modify w _ s.wse.walls e he
  obtain ⟨hpicture, f, hf, hagrees⟩ := hs _ hx
  obtain ⟨k, y⟩ := e
  rcases h with rfl | rfl
  · exact ⟨hpicture, f, hf, hagrees⟩
  · exact ⟨hpicture, f, hf, hagrees⟩

theorem settleShedding_settled (w : Nat) (s : State) (hs : s.framesSettled) : (settleShedding w s).framesSettled := by
  unfold settleShedding
  split
  · exact hs
  · have shed (b : Bool) := modWall_setShed_settled w b s hs
    dsimp only
    split
    · exact (shed _).of_sources rfl
    · exact shed _

theorem judgeChain_frameSources (c : Nat) (s : State) : (judgeChain c s).frameSources = s.frameSources := by
  unfold judgeChain enterChain
  dsimp only
  repeat' split
  all_goals rfl

theorem foldl_settled {β : Type} (f : State → β → State) (h : ∀ s b, State.framesSettled s → (f s b).framesSettled)
    (l : List β) (s : State) (hs : s.framesSettled) : (l.foldl f s).framesSettled := by
  induction l generalizing s with
  | nil => exact hs
  | cons b rest ih => exact ih _ (h s b hs)

theorem beginSending_frameSources (s : State) : (beginSending s).frameSources = s.frameSources := rfl

theorem wseAtBoundary_settled (s : State) : (wseAtBoundary s).framesSettled := by
  have shed := foldl_settled _ (fun t w => settleShedding_settled w t) (List.range 4) _
    (settleFrames_settled ((List.range 4).foldl (fun t w => settleMode w t) s))
  have judged := foldl_settled _ (fun t c ht => ht.of_sources (judgeChain_frameSources c t)) (List.range 8) _ shed
  exact judged.of_sources (beginSending_frameSources _)

theorem blocksAtBoundary_settled (lines : BitVec 8) (cut : Bool) (s : State) :
    (blocksAtBoundary lines cut s).framesSettled := by
  let s1 := cphAtBoundary lines s
  let s2 := liveAtBoundary (cueAtBoundary (tallyRises s.cph s1.cph) s1)
  refine (wseAtBoundary_settled s2).of_sources (t := douAtBoundary cut (fbcAtBoundary (wseAtBoundary s2))) ?_
  rw [douAtBoundary_keeps State.frameSources (fun _ _ => rfl),
    fbcAtBoundary_keeps State.frameSources (fun _ _ => rfl) (fun _ _ _ => rfl)]

end Sys2Proof.Machine
end

section
/-! FRAME_BOUNDARY, R4, R5 and R81. -/

namespace Sys2Proof.Machine

/-! ## The generator's frame, R4 and R5 -/

/-- What of the generator a boundary that the tick count brings leaves to R5. -/
def Rtu.frameFields (r : Rtu) :=
  (r.counter, r.tick, r.tickBase, r.endTick, r.mode, r.standard, r.lastMeasured)

theorem Rtu.acquiringHoldover_frameFields (r : Rtu) : r.acquiringHoldover.frameFields = r.frameFields := by
  unfold Rtu.acquiringHoldover
  repeat' split
  all_goals rfl

theorem abandonAcquisition_frameFields (s : State) :
    (abandonAcquisition s).rtu.frameFields = s.rtu.frameFields := by
  unfold abandonAcquisition
  split <;> rfl

theorem genAtBoundary_frameFields (s : State) : (genAtBoundary s).rtu.frameFields = s.rtu.frameFields := by
  cases hg : s.rtu.gen with
  | freerun => simp only [genAtBoundary, hg]; rfl
  | locked => simp only [genAtBoundary, hg]
  | holdover =>
    simp only [genAtBoundary, hg]
    split <;> rfl
  | acquiring =>
    rw [genAtBoundary_acquiring s hg]
    have counted := s.rtu.acquiringHoldover_frameFields
    dsimp only
    split
    · exact (abandonAcquisition_frameFields _).trans counted
    · exact counted

theorem tickBoundary_frameFields (lines : BitVec 8) (s : State) :
    (tickBoundary lines s).rtu.frameFields = (s.rtu.beginFrame s.rtu.expectedEnd).frameFields := by
  rw [tickBoundary, takeBoundary_rtu, endLengthened_rtu]
  refine (genAtBoundary_frameFields (s.begun s.rtu.expectedEnd)).trans ?_
  rw [State.begun_rtu]

/-! ## The Camera Phase Unit and the tile map at a boundary -/

theorem cphAtBoundary_cph (lines : BitVec 8) (s : State) : (cphAtBoundary lines s).cph = (s.cph.sample lines).step :=
  cameraChange_keeps State.cph (fun _ _ _ => rfl) s.cph.winner (s.setCph (s.cph.sample lines).step)

theorem blocksAtBoundary_cph (lines : BitVec 8) (cut : Bool) (s : State) :
    (blocksAtBoundary lines cut s).cph = (s.cph.sample lines).step := by
  simp only [blocksAtBoundary]
  rw [douAtBoundary_keeps State.cph (fun _ _ => rfl), fbcAtBoundary_keeps State.cph (fun _ _ => rfl) (fun _ _ _ => rfl),
    wseAtBoundary_keeps State.cph (fun _ _ => rfl) (fun _ _ => rfl) (fun _ _ _ => rfl) (fun _ _ _ => rfl),
    liveAtBoundary_keeps State.cph (fun _ _ => rfl) (fun _ _ _ => rfl),
    cueAtBoundary_keeps State.cph (fun _ _ => rfl) (fun _ _ _ => rfl) (fun _ _ _ => rfl) (fun _ _ _ => rfl)
      (fun _ _ => rfl) (fun _ _ _ => rfl), cphAtBoundary_cph]

theorem tickBoundary_cph (lines : BitVec 8) (s : State) :
    (tickBoundary lines s).cph = (s.cph.sample lines).step := by
  rw [tickBoundary, takeBoundary_eq, blocksAtBoundary_cph, endLengthened_keeps State.cph (fun _ _ => rfl)
    (fun _ _ _ => rfl), genAtBoundary_keeps State.cph (fun _ _ => rfl) (fun _ _ _ => rfl)]
  exact congrArg (fun c : Cph => (c.sample lines).step)
    (completeZones_keeps State.cph (fun _ _ _ => rfl) (fun _ _ _ => rfl) (fun _ _ => rfl) s)

theorem beginSending_frameTiles (s : State) : (beginSending s).wse.frameTiles = (beginSending s).wse.tiles := rfl

/-- R87: the tile map of the frame that begins is the tile map. -/
theorem blocksAtBoundary_frameTiles (lines : BitVec 8) (cut : Bool) (s : State) :
    (blocksAtBoundary lines cut s).wse.frameTiles = (blocksAtBoundary lines cut s).wse.tiles := by
  have hwse : (blocksAtBoundary lines cut s).wse =
      (wseAtBoundary (liveAtBoundary (cueAtBoundary (tallyRises s.cph (cphAtBoundary lines s).cph)
        (cphAtBoundary lines s)))).wse := by
    simp only [blocksAtBoundary]
    rw [douAtBoundary_keeps State.wse (fun _ _ => rfl),
      fbcAtBoundary_keeps State.wse (fun _ _ => rfl) (fun _ _ _ => rfl)]
  rw [hwse]
  exact beginSending_frameTiles _

theorem tickBoundary_tiles (lines : BitVec 8) (s : State) : (tickBoundary lines s).wse.tiles = s.wse.tiles :=
  tickBoundary_keeps (fun t => t.wse.tiles) (fun _ _ => rfl) (fun _ _ => rfl) (fun _ _ => rfl) (fun _ _ => rfl)
    (fun _ _ h => h) (fun _ _ _ => rfl) (fun _ _ _ => rfl) (fun _ _ => rfl) (fun _ _ => rfl) (fun _ _ _ => rfl) lines s

/-! ## The frame parameters, R81 -/

theorem State.frameParams_layer (s : State) (w : Nat) (x : Wall) (i : Nat) (hi : i < 4) :
    at_ (s.frameParams w x).layers i FrameLayer.none_ = s.frameLayer w x (i + 1) := by
  match i, hi with
  | 0, _ => rfl
  | 1, _ => rfl
  | 2, _ => rfl
  | 3, _ => rfl

theorem State.frameLayer_current (s : State) (w i : Nat) (x : Wall) (h : x.held = none) :
    (s.frameLayer w x (i + 1)).layer = at_ x.layers i Layer.none_ ∧
      (s.frameLayer w x (i + 1)).opacity = s.level (768 + 4 * w + i) := by
  have target : opacityTarget w (i + 1) = 768 + 4 * w + i := by unfold opacityTarget; omega
  simp only [State.frameLayer, h, target, Wall.layer, Nat.add_sub_cancel, and_self]

theorem State.frameLayer_held (s : State) (w i : Nat) (x : Wall) (h : Held) (hx : x.held = some h) :
    (s.frameLayer w x (i + 1)).layer = (at_ h.layers i default).layer ∧
      (s.frameLayer w x (i + 1)).opacity = (at_ h.layers i default).opacity := by
  simp only [State.frameLayer, hx, Nat.add_sub_cancel, and_self]

theorem State.frameLayer_buffer (s : State) (w i : Nat) (x : Wall) :
    (s.frameLayer w x (i + 1)).buffer = (at_ s.lip.latch (4 * w + i) none).map (·.buffer) := by
  have entry : w * 4 + (i + 1) - 1 = 4 * w + i := by omega
  simp only [State.frameLayer, State.latched, entry]

/-- Settles O18: the generator begins the frame, and the parameters that it settles stay to the end of the boundary. -/
theorem frameBoundaryBeginsFrame : Obligations.FrameBoundaryBeginsFrame := by
  intro lines s hg
  have hframe := tickBoundary_frameFields lines s
  simp only [Rtu.frameFields, Prod.mk.injEq] at hframe
  obtain ⟨hcounter, htick, hbase, hend, hmode, hstandard, hmeasured⟩ := hframe
  refine ⟨tickBoundary lines s, if_pos (decide_eq_true hg), hcounter, htick, hbase, hend, hmode, hstandard, hmeasured,
    tickBoundary_cph lines s, ?_, blocksAtBoundary_frameTiles lines _ _, tickBoundary_tiles lines s,
    tickBoundary_boundaryKeeps lines s⟩
  intro e he
  have hsettled : (tickBoundary lines s).framesSettled := blocksAtBoundary_settled lines _ _
  obtain ⟨hpicture, f, hf, hfmode, hfpattern, hfbrightness, hflayers⟩ := hsettled e he
  generalize tickBoundary lines s = t at *
  refine ⟨hpicture, f, hf, hfmode, hfpattern, fun h => ?_, fun h hh => ?_, fun i hi => ?_⟩
  · rw [hfbrightness]
    simp only [State.frameParams, h]
    rfl
  · rw [hfbrightness]
    simp only [State.frameParams, hh]
  · obtain ⟨a, ha⟩ := hflayers i hi
    rw [t.frameParams_layer e.1 e.2 i hi] at ha
    intro l overlap
    have hl : l = { t.frameLayer e.1 e.2 (i + 1) with admission := a } := ha
    clear_value l
    subst hl
    exact ⟨t.frameLayer_current e.1 i e.2, t.frameLayer_held e.1 i e.2, t.frameLayer_buffer e.1 i e.2, rfl, rfl⟩

end Sys2Proof.Machine
end

section
/-! Requests that only read. -/

namespace Sys2Proof.Machine

/-! ## Answers that leave the state -/

/-- The answer leaves the state `s` as it is, and is OK where `ok` holds; where it is not OK it is a status alone. -/
def Answer.readsIf (a : Answer) (s : State) (ok : Prop) : Prop :=
  ∃ (st : Status) (fields : List Field), a = .reply st fields s ∧ (st = .ok ↔ ok) ∧ (st ≠ .ok → fields = [])

theorem Answer.readsIf_found (fields : List Field) (s : State) {ok : Prop} (h : ok) :
    (Answer.reply .ok fields s).readsIf s ok :=
  ⟨.ok, fields, rfl, iff_of_true rfl h, fun hst => absurd rfl hst⟩

theorem Answer.readsIf_refused (st : Status) (s : State) {ok : Prop} (hst : st ≠ .ok) (h : ¬ok) :
    (refuse st s).readsIf s ok :=
  ⟨st, [], rfl, iff_of_false hst h, fun _ => rfl⟩

theorem Answer.readsIf.congr {a : Answer} {s : State} {p q : Prop} (h : a.readsIf s p) (e : p ↔ q) : a.readsIf s q :=
  propext e ▸ h

/-- A request whose block only reads is answered at once, and nothing else changes. -/
theorem serve_reads (cmd : Instr) (tag kind : Byte) (handle : State → Answer) (rest : List QueuedRequest) (s : State)
    (ok : Prop) (h : s.takes cmd rest) (ha : (handle (s.atHead cmd rest)).readsIf (s.atHead cmd rest) ok) :
    ∃ (st : Status) (fields : List Field),
      Host.Outcome.next (serve cmd tag kind handle s) = (.next (s.answered tag kind st fields rest) : Result) ∧
        (st = .ok ↔ ok) ∧ (st ≠ .ok → fields = []) := by
  obtain ⟨st, fields, ha, hok, hfields⟩ := ha
  refine ⟨st, fields, ?_, hok, hfields⟩
  rw [serve_taken cmd tag kind handle rest s h, ha]
  exact congrArg _ (State.repliedFrom_answered _ _ _ _ _ _ _ rfl)

/-! ## The handlers -/

variable (s : State)

theorem Table.firstFrom_isSome {α : Type} (k : Nat) (t : Table α) :
    (t.firstFrom k).isSome = true ↔ ∃ e ∈ t, k ≤ e.1 := by
  induction t with
  | nil => simp [Table.firstFrom]
  | cons e rest ih =>
    obtain ⟨j, y⟩ := e
    by_cases h : k ≤ j
    · simp [Table.firstFrom, h]
    · simp [Table.firstFrom, h, ih]

theorem readRegion_reads (id : Nat) :
    (readRegion id s).readsIf s (s.fsc.store = .ready ∧ id ≤ 63 ∧ s.region id ≠ none) := by
  by_cases hstore : s.fsc.store = .ready
  · by_cases hid : 63 < id
    · simp only [readRegion, firstFailing, decide_eq_false (not_not.mpr hstore), decide_eq_true hid, if_true]
      exact Answer.readsIf_refused .range s nofun (fun found => Nat.not_lt.mpr found.2.1 hid)
    · simp only [readRegion, firstFailing, decide_eq_false (not_not.mpr hstore), decide_eq_false hid]
      cases hr : s.region id with
      | none => exact Answer.readsIf_refused .noSuch s nofun (fun found => found.2.2 rfl)
      | some r => exact Answer.readsIf_found _ s ⟨hstore, Nat.not_lt.mp hid, nofun⟩
  · simp only [readRegion, firstFailing, decide_eq_true hstore, if_true]
    exact Answer.readsIf_refused .notReady s nofun (fun found => hstore found.1)

theorem readWall_reads (w : Nat) : (readWall w s).readsIf s (w ≤ 3 ∧ s.wall w ≠ none) := by
  by_cases hw : 3 < w
  · simp only [readWall, decide_eq_true hw]
    exact Answer.readsIf_refused .range s nofun (fun found => Nat.not_lt.mpr found.1 hw)
  · simp only [readWall, decide_eq_false hw]
    cases hx : s.wall w with
    | none => exact Answer.readsIf_refused .noSuch s nofun (fun found => found.2 rfl)
    | some x => exact Answer.readsIf_found _ s ⟨Nat.not_lt.mp hw, nofun⟩

theorem readZone_found (id : Nat) (z : Zone) (hid : id ≤ 7) (hz : s.wse.zones.find id = some z) :
    readZone id s = .reply .ok
      (zoneFields id (some z) ++ averagesFields z.last ++ [optCounter z.lastFrame, s.counterField]) s := by
  simp only [readZone, decide_eq_false (Nat.not_lt.mpr hid), hz]

theorem readZone_reads (id : Nat) : (readZone id s).readsIf s (id ≤ 7 ∧ s.wse.zones.find id ≠ none) := by
  by_cases hid : 7 < id
  · simp only [readZone, decide_eq_true hid]
    exact Answer.readsIf_refused .range s nofun (fun found => Nat.not_lt.mpr found.1 hid)
  · simp only [readZone, decide_eq_false hid]
    cases hz : s.wse.zones.find id with
    | none => exact Answer.readsIf_refused .noSuch s nofun (fun found => found.2 rfl)
    | some z => exact Answer.readsIf_found _ s ⟨Nat.not_lt.mp hid, nofun⟩

theorem readCue_searches (n : Nat) : (readCue n 1 s).readsIf s (∃ e ∈ s.cue.cues, n ≤ e.1) := by
  rw [← Table.firstFrom_isSome]
  cases hf : s.cue.cues.firstFrom n with
  | none =>
    simp only [readCue, hf, if_true]
    exact Answer.readsIf_refused .noSuch s nofun nofun
  | some e =>
    simp only [readCue, hf, if_true]
    exact Answer.readsIf_found _ s rfl

theorem readCue_reads (n search : Nat) (h : search ≠ 1) :
    (readCue n search s).readsIf s (n ≠ 0 ∧ s.cue.cues.find n ≠ none) := by
  by_cases hn : n = 0
  · simp only [readCue, decide_eq_true h, decide_eq_true hn, Bool.and_self]
    exact Answer.readsIf_refused .range s nofun (fun found => found.1 hn)
  · simp only [readCue, decide_eq_false hn, Bool.and_false, if_neg h]
    cases hf : s.cue.cues.find n with
    | none => exact Answer.readsIf_refused .noSuch s nofun (fun found => found.2 rfl)
    | some c => exact Answer.readsIf_found _ s ⟨hn, nofun⟩

theorem readCue_answers (n search : Nat) :
    (readCue n search s).readsIf s
      (search ≠ 1 ∧ n ≠ 0 ∧ s.cue.cues.find n ≠ none ∨ search = 1 ∧ ∃ e ∈ s.cue.cues, n ≤ e.1) := by
  by_cases hs : search = 1
  · subst hs
    exact (readCue_searches s n).congr (by simp)
  · exact (readCue_reads s n search hs).congr (by simp [hs])

theorem readLevels_reads (q : ReadLevelsReq) :
    (readLevels q s).readsIf s
      (q.view = 0 ∧ q.first ≤ 767 ∧ 1 ≤ q.count ∧ q.count ≤ 64 ∧ q.first + q.count ≤ 768 ∨ q.view = 1 ∨ q.view = 2) := by
  obtain ⟨view, first, count⟩ := q
  match view with
  | 0 =>
    show (if 767 < first ∨ count < 1 ∨ 64 < count ∨ 768 < first + count then refuse .range s else _).readsIf s _
    split
    · refine Answer.readsIf_refused .range s nofun ?_
      dsimp only
      omega
    · refine Answer.readsIf_found _ s ?_
      dsimp only
      omega
  | 1 => exact Answer.readsIf_found _ s (.inr (.inl rfl))
  | 2 => exact Answer.readsIf_found _ s (.inr (.inr rfl))
  | n + 3 =>
    refine Answer.readsIf_refused .range s nofun ?_
    dsimp only
    omega

theorem readBus_reads (port : Nat) : (readBus port s).readsIf s (port ≤ 1) := by
  match port with
  | 0 => exact Answer.readsIf_found _ s (by omega)
  | 1 => exact Answer.readsIf_found _ s (by omega)
  | n + 2 => exact Answer.readsIf_refused .range s nofun (by omega)

theorem readFixture_searches (id : Nat) :
    (readFixture id (some 1) s).readsIf s (∃ e ∈ s.fbc.fixtures, id ≤ e.1) := by
  rw [← Table.firstFrom_isSome]
  cases hf : s.fbc.fixtures.firstFrom id with
  | none =>
    simp only [readFixture, hf, if_true]
    exact Answer.readsIf_refused .noSuch s nofun nofun
  | some e =>
    simp only [readFixture, hf, if_true]
    exact Answer.readsIf_found _ s rfl

theorem readFixture_reads (id : Nat) (search : Option Nat) (h : search ≠ some 1) :
    (readFixture id search s).readsIf s (id ≤ 191 ∧ s.fbc.fixtures.find id ≠ none) := by
  by_cases hid : 191 < id
  · simp only [readFixture, decide_eq_true h, decide_eq_true hid, Bool.and_self]
    exact Answer.readsIf_refused .range s nofun (fun found => Nat.not_lt.mpr found.1 hid)
  · simp only [readFixture, decide_eq_false hid, Bool.and_false, if_neg h]
    cases hf : s.fbc.fixtures.find id with
    | none => exact Answer.readsIf_refused .noSuch s nofun (fun found => found.2 rfl)
    | some f => exact Answer.readsIf_found _ s ⟨Nat.not_lt.mp hid, nofun⟩

theorem readFixture_answers (id : Nat) (search : Option Nat) :
    (readFixture id search s).readsIf s
      (search ≠ some 1 ∧ id ≤ 191 ∧ s.fbc.fixtures.find id ≠ none ∨
        search = some 1 ∧ ∃ e ∈ s.fbc.fixtures, id ≤ e.1) := by
  by_cases hs : search = some 1
  · subst hs
    exact (readFixture_searches s id).congr (by simp)
  · exact (readFixture_reads s id search hs).congr (by simp [hs])

theorem readDimmer_reads (output : Option Nat) :
    (readDimmer output s).readsIf s (∀ o, output = some o → o ≤ 15) := by
  by_cases ho : 15 < output.getD 0
  · simp only [readDimmer, checked, firstFailing, ho, decide_true, if_true]
    refine Answer.readsIf_refused .range s nofun (fun h => ?_)
    cases output with
    | none => simp at ho
    | some o => exact absurd (h o rfl) (by simpa using ho)
  · simp only [readDimmer, checked, firstFailing, ho, decide_false]
    refine Answer.readsIf_found _ s (fun o h => ?_)
    subst h
    simpa using ho

/-! ## The requests -/

theorem readPhaseReq_of_parts (q : ReadPhaseReq) (kind : Nat) (tag : Byte) (body : List Byte)
    (h : requestParts (.readPhase q) = some (kind, tag, body)) : q = ⟨tag, none⟩ ∧ kind = 0x18 := by
  obtain ⟨t, _ | lines⟩ := q
  · cases h
    exact ⟨rfl, rfl⟩
  · cases h

/-- A request of a kind that only reads is one of sixteen, each with a handler that only reads. -/
theorem exec_reads (i : Instr) (kind : Nat) (tag : Byte) (body : List Byte) (rest : List QueuedRequest)
    (hparts : requestParts i = some (kind, tag, body)) (hkind : kind ∈ readKinds) (h : s.takes i rest) :
    ∃ (st : Status) (fields : List Field), exec i s = .next (s.answered tag (byte kind) st fields rest) ∧
      (st = .ok ↔ s.answersRead i) ∧ (st ≠ .ok → fields = []) := by
  cases i with
  | identify t | readStatus t | readTiming t | readMemory t | readPosting t | readLive t | readCueState t =>
    cases hparts
    exact serve_reads _ _ _ _ rest s True h (Answer.readsIf_found _ _ trivial)
  | readPhase q =>
    obtain ⟨rfl, rfl⟩ := readPhaseReq_of_parts q kind tag body hparts
    exact serve_reads _ _ _ _ rest s True h (Answer.readsIf_found _ _ trivial)
  | readRegion t id =>
    cases hparts
    exact serve_reads _ _ _ _ rest s _ h (readRegion_reads _ id)
  | readWall t w =>
    cases hparts
    exact serve_reads _ _ _ _ rest s _ h (readWall_reads _ w)
  | readZone t id =>
    cases hparts
    exact serve_reads _ _ _ _ rest s _ h (readZone_reads _ id)
  | readCue t n search =>
    cases hparts
    exact serve_reads _ _ _ _ rest s _ h (readCue_answers _ n search)
  | readLevels t q =>
    cases hparts
    exact serve_reads _ _ _ _ rest s _ h (readLevels_reads _ q)
  | readBus t port =>
    cases hparts
    exact serve_reads _ _ _ _ rest s _ h (readBus_reads _ port)
  | readFixture t id search =>
    cases hparts
    exact serve_reads _ _ _ _ rest s _ h (readFixture_answers _ id search)
  | readDimmer t output =>
    cases hparts
    exact serve_reads _ _ _ _ rest s _ h (readDimmer_reads _ output)
  | _ =>
    cases hparts <;> exact absurd hkind (by decide)

theorem linkRate_eq (straps : BitVec 2) :
    linkRate straps = if straps = 0 then 1 else if straps = 1 then 4 else if straps = 2 then 12 else 25 := by
  revert straps
  decide

/-- Settles O13: each of the sixteen handlers answers with the state it was given. -/
theorem readsChangeNothing : Obligations.ReadsChangeNothing := by
  refine ⟨fun i kind tag body rest s hparts hkind h => exec_reads s i kind tag body rest hparts hkind h, ?_⟩
  intro tag rest s
  refine ⟨fun h => ?_, fun id z h hid hz => ?_⟩
  · rw [← linkRate_eq]
    exact congrArg _ (serve_ok _ tag 0x01 identify rest s _ _ h rfl rfl)
  · have found := readZone_found (s.atHead (.readZone tag id) rest) id z hid hz
    have hexec : exec (.readZone tag id) s = .next (s.answered tag 0x39 .ok (zoneFields id (some z) ++
        averagesFields z.last ++ [optCounter z.lastFrame, s.counterField]) rest) :=
      congrArg _ (serve_ok _ tag 0x39 (readZone id) rest s _ _ h found rfl)
    rw [hexec]
    cases z.last <;> rfl

end Sys2Proof.Machine
end

section
/-! The reset values. -/

namespace Sys2Proof.Machine

/-! ## The blocks -/

theorem reset_rtu :
    let r := State.reset.rtu
    r.mode = .lock ∧ r.standard = .fps5994 ∧ r.fieldMode = .progressive ∧ r.polarity = .normal ∧
      r.holdoverLimit = 50 ∧ r.gen = .freerun ∧ r.counter = 0 ∧ r.tick = 0 ∧ r.period = 16683333 ∧
      r.lastMeasured = 0 ∧ r.lastSlip = 0 ∧ r.acqCount = 0 ∧ r.holdoverCount = 0 ∧ r.gapCount = 0 ∧
      r.acqOrigin = .freerun ∧ r.warned = false ∧ r.prevStart = none ∧ r.lastLine = none := by
  decide

/-- Every entry of a fixed table filled with one value has what that value has. -/
theorem forall_mem_replicate {α : Type} {n : Nat} {x : α} {p : α → Prop} (h : p x) :
    ∀ y ∈ (Vector.replicate n x).toList, p y := by
  intro y hy
  rw [Vector.toList_replicate] at hy
  exact List.eq_of_mem_replicate hy ▸ h

theorem reset_port (p : Port) : State.reset.port p = BusPort.reset := by
  cases p <;> rfl

theorem at_twoParts {α : Type} (m n i : Nat) (x y d : α) (h : i < m + n) :
    at_ (twoParts m n x y) i d = if i < m then x else y := by
  have entry : (twoParts m n x y)[i]? = (List.replicate m x ++ List.replicate n y)[i]? := by
    simp [twoParts]
  rw [at_, entry]
  by_cases hi : i < m
  · simp [hi, List.getElem?_append]
  · have hin : i - m < n := by omega
    simp [hi, hin, List.getElem?_append]

/-- R146: the channels are at 0; opacities, brightnesses and the master at 65535. -/
theorem reset_level (i : Nat) (h : i < 768 + 21) : State.reset.level i = if i < 768 then 0 else 65535 :=
  at_twoParts 768 21 i 0 65535 0 h

/-! ## The invariants -/

theorem reset_storeSound : State.reset.storeSound := by
  have sizing : State.reset.fsc.store = .sizing := rfl
  have regions : State.reset.fsc.regions = [] := rfl
  have walls : State.reset.wse.walls = [] := rfl
  refine ⟨fun _ => regions, fun _ => forall_mem_replicate ⟨rfl, rfl⟩, fun h => ?_, ?_, ?_⟩
  · rw [sizing] at h
    cases h
  · rw [regions]
    exact List.forall_mem_nil _
  · rw [walls]
    exact List.forall_mem_nil _

theorem reset_writerFree : State.reset.writerFree :=
  ⟨iff_of_true rfl rfl, fun _ => ⟨rfl, rfl⟩, nofun⟩

theorem reset_portsSettled : State.reset.portsSettled := by
  have settled : BusPort.reset.settled := ⟨nofun, by decide, by decide, by decide⟩
  exact ⟨settled, settled⟩

theorem reset_tablesWf : State.reset.tablesWf := ⟨rfl, rfl, rfl, rfl, rfl, rfl, rfl, rfl⟩

theorem reset_bounded : State.reset.bounded := by
  unfold State.bounded
  decide

theorem reset_phasesInRange : State.reset.phasesInRange :=
  ⟨by decide, by decide, by decide, by decide, by decide, forall_mem_replicate (by decide)⟩

theorem reset_countsHold : State.reset.countsHold := by
  have walls : State.reset.wse.walls = [] := rfl
  have cues : State.reset.cue.cues = [] := rfl
  have waits : State.reset.cue.waits = [] := rfl
  have free : State.reset.lkd.hold = .free := rfl
  refine ⟨reset_tablesWf, fun _ => ⟨rfl, rfl, rfl⟩, ?_, ?_, ?_, fun h => ?_⟩
  · rw [walls]
    exact List.forall_mem_nil _
  · rw [cues]
    exact List.forall_mem_nil _
  · rw [waits]
    exact List.forall_mem_nil _
  · rw [free] at h
    cases h

/-- Settles O3, block by block. -/
theorem resetValues : Obligations.ResetValues := by
  refine ⟨reset_rtu, ⟨forall_mem_replicate rfl, by decide⟩, ?_, ?_, ?_, by decide, ?_, ⟨rfl, fun p => ?_⟩,
    forall_mem_replicate ⟨rfl, rfl, rfl⟩, by decide, rfl, reset_tablesWf, reset_bounded, reset_phasesInRange,
    reset_writerFree, reset_portsSettled, reset_storeSound, nofun, reset_countsHold⟩
  · exact ⟨rfl, rfl, rfl, rfl, rfl, rfl, rfl, forall_mem_replicate ⟨rfl, rfl⟩⟩
  · exact ⟨rfl, rfl, rfl, rfl, rfl, forall_mem_replicate rfl, rfl⟩
  · exact ⟨rfl, rfl, rfl, forall_mem_replicate ⟨rfl, rfl, rfl, rfl⟩⟩
  · exact ⟨rfl, rfl, rfl, reset_level 767 (by decide), reset_level 768 (by decide), reset_level 788 (by decide)⟩
  · rw [reset_port p]
    decide

end Sys2Proof.Machine
end

section
/-! SUPPORT. Tables of records: what keeps their numbers rising, and how many records they hold. -/

namespace Sys2Proof.Machine

namespace Table

variable {α : Type}

/-! ## The canonical form is a matter of the numbers alone -/

theorem wf_iff_ids (t : Table α) : t.wf = true ↔ t.ids.Pairwise (· < ·) := by
  induction t with
  | nil => simp [Table.wf, Table.ids]
  | cons e rest ih =>
    have rises : above e.1 rest ↔ ∀ j ∈ Table.ids rest, e.1 < j := by simp [above, Table.ids]
    rw [show Table.wf (e :: rest) = true ↔ _ from wf_cons e.1 e.2 rest, ih, rises]
    exact List.pairwise_cons.symm

theorem wf_of_ids {β : Type} {t : Table α} {u : Table β} (h : u.ids = t.ids) (ht : t.wf = true) : u.wf = true :=
  (wf_iff_ids u).mpr (h ▸ (wf_iff_ids t).mp ht)

theorem ids_modify (k : Nat) (f : α → α) (t : Table α) : (t.modify k f).ids = t.ids := by
  induction t with
  | nil => rfl
  | cons e rest ih => exact congrArg (e.1 :: ·) ih

theorem ids_mapAll (f : α → α) (t : Table α) : (t.mapAll f).ids = t.ids := by
  induction t with
  | nil => rfl
  | cons e rest ih => exact congrArg (e.1 :: ·) ih

theorem ids_map (f : Nat × α → α) (t : Table α) : Table.ids (t.map (fun e => (e.1, f e))) = t.ids := by
  simp [Table.ids]

theorem wf_modify (k : Nat) (f : α → α) {t : Table α} (h : t.wf = true) : (t.modify k f).wf = true :=
  wf_of_ids (ids_modify k f t) h

theorem wf_mapAll (f : α → α) {t : Table α} (h : t.wf = true) : (t.mapAll f).wf = true :=
  wf_of_ids (ids_mapAll f t) h

theorem wf_keep (p : Nat → α → Bool) {t : Table α} (h : t.wf = true) : (t.keep p).wf = true := by
  have sub : (t.keep p).Sublist t := by
    clear h
    induction t with
    | nil => exact .slnil
    | cons e rest ih =>
      simp only [Table.keep]
      split
      · exact ih.cons_cons e
      · exact ih.cons e
  exact (wf_iff_ids _).mpr (((wf_iff_ids t).mp h).sublist (sub.map _))

/-! ## How many records -/

theorem length_mapAll (f : α → α) (t : Table α) : (t.mapAll f).length = t.length := by
  simpa [Table.ids] using congrArg List.length (ids_mapAll f t)

theorem length_erase_le (k : Nat) (t : Table α) : (t.erase k).length ≤ t.length := by
  induction t with
  | nil => exact Nat.le_refl 0
  | cons e rest ih =>
    simp only [Table.erase]
    split <;> simp only [List.length_cons] <;> omega

theorem length_insert_le (k : Nat) (x : α) (t : Table α) : (t.insert k x).length ≤ t.length + 1 := by
  induction t with
  | nil => simp [Table.insert]
  | cons e rest ih =>
    simp only [Table.insert]
    repeat' split
    all_goals simp only [List.length_cons] at ih ⊢
    all_goals omega

/-- In a canonical table a record written under a number that is taken comes in the place of the one before. -/
theorem length_insert_taken (k : Nat) (x y : α) (t : Table α) (h : t.wf = true) (hk : t.find k = some y) :
    (t.insert k x).length = t.length := by
  induction t with
  | nil => cases hk
  | cons e rest ih =>
    obtain ⟨ha, hr⟩ := (wf_cons e.1 e.2 rest).mp h
    by_cases he : k = e.1
    · simp [Table.insert, he]
    · have hrest : Table.find k rest = some y := by simpa [Table.find, he] using hk
      have low : ¬k < e.1 := by
        intro hlt
        have absent : Table.find k (Table.erase k rest) = some y := by
          rw [erase_above k rest (fun d hd => lt_trans hlt (ha d hd))]
          exact hrest
        simp [find_erase] at absent
      simp [Table.insert, low, he, ih hr hrest]

end Table

/-! ## Fixed tables -/

theorem mem_mapFrom {α β : Type} (f : Nat → α → β) (k : Nat) (l : List α) (y : β) (h : y ∈ mapFrom f k l) :
    ∃ i, ∃ x ∈ l, y = f i x := by
  induction l generalizing k with
  | nil => cases h
  | cons x xs ih =>
    rcases List.mem_cons.mp h with rfl | h
    · exact ⟨k, x, by simp, rfl⟩
    · obtain ⟨i, z, hz, rfl⟩ := ih (k + 1) h
      exact ⟨i, z, List.mem_cons_of_mem _ hz, rfl⟩

theorem mem_put {α : Type} {n : Nat} (v : Vector α n) (i : Nat) (x y : α) (h : y ∈ (put v i x).toList) :
    y = x ∨ y ∈ v.toList := by
  have hset : y ∈ v.toList.set i x := by simpa [put] using h
  exact (List.mem_or_eq_of_mem_set hset).symm

theorem at_mem {α : Type} {n : Nat} (v : Vector α n) (i : Nat) (d : α) :
    at_ v i d = d ∨ at_ v i d ∈ v.toList := by
  unfold at_
  cases h : v[i]? with
  | none => exact .inl rfl
  | some x =>
    right
    simpa using Vector.mem_of_getElem? h

end Sys2Proof.Machine
end

section
/-! SUPPORT. Sizes and forms, block by block: the relation `State.KeepsForms` says of two states what O56 says of a
step, and writing a block keeps it where the block's own form and sizes are kept. -/

namespace Sys2Proof.Machine

/-! ## The conditions of each block -/

/-- R172, R176: the request queue, the notice queue and the two counts of the Link Dispatcher are within size. -/
def Lkd.fits (l : Lkd) : Prop :=
  l.requests.length ≤ 4 ∧ noticeCount l.ready ≤ 32 ∧ l.dropped ≤ 65535 ∧ l.linkErrors ≤ 65535

/-- R120, R124: the wait list and the active cues are within size. -/
def CueEngine.fits (c : CueEngine) : Prop := c.waits.length ≤ 128 ∧ c.active.length ≤ 16

/-- R132, R138: the running and the pending manual fades are within size. -/
def Lvp.fits (l : Lvp) : Prop := l.fades.length ≤ 256 ∧ l.manual.length ≤ 32

/-- R161: the transmit queues are within size. -/
def Fbc.fits (f : Fbc) : Prop := f.portA.queue.length ≤ 32 ∧ f.portB.queue.length ≤ 32

/-- The tables of the Wall Scan Engine are canonical. -/
def Wse.tablesWf (w : Wse) : Prop :=
  Table.wf w.walls = true ∧ Table.wf w.tiles = true ∧ Table.wf w.frameTiles = true ∧ Table.wf w.zones = true

/-- The phases of the Camera Phase Unit lie on the circle, and the slew limit in 1..1024. -/
def Cph.inRange (c : Cph) : Prop :=
  c.phase < 1024 ∧ c.target < 1024 ∧ c.idlePhase < 1024 ∧ 1 ≤ c.slewLimit ∧ c.slewLimit ≤ 1024 ∧
    ∀ x ∈ c.cameras.toList, x.phase < 1024

theorem State.bounded_iff (s : State) :
    s.bounded ↔ s.lkd.fits ∧ s.fsc.posting.length ≤ 8 ∧ s.cue.fits ∧ s.lvp.fits ∧ s.fbc.fits := by
  simp only [State.bounded, Lkd.fits, CueEngine.fits, Lvp.fits, Fbc.fits, and_assoc]

theorem State.tablesWf_iff (s : State) :
    s.tablesWf ↔ Table.wf s.fsc.regions = true ∧ s.wse.tablesWf ∧ Table.wf s.cue.cues = true ∧
      Table.wf s.lvp.fades = true ∧ Table.wf s.fbc.fixtures = true := by
  simp only [State.tablesWf, Wse.tablesWf, and_assoc]

theorem State.phasesInRange_iff (s : State) : s.phasesInRange ↔ s.cph.inRange := Iff.rfl

/-! ## What a write to a block must keep -/

structure Fsc.KeepsForms (f g : Fsc) : Prop where
  memory : Memory.wf f.mem = true → Memory.wf g.mem = true
  regions : Table.wf f.regions = true → Table.wf g.regions = true
  posting : f.posting.length ≤ 8 → g.posting.length ≤ 8

structure Wse.KeepsForms (v w : Wse) : Prop where
  tables : v.tablesWf → w.tablesWf

structure CueEngine.KeepsForms (c d : CueEngine) : Prop where
  cues : Table.wf c.cues = true → Table.wf d.cues = true
  sizes : c.fits → d.fits

structure Lvp.KeepsForms (l m : Lvp) : Prop where
  fades : Table.wf l.fades = true → Table.wf m.fades = true
  sizes : Table.wf l.fades = true → l.fits → m.fits

structure BusPort.KeepsForms (b c : BusPort) : Prop where
  queue : b.queue.length ≤ 32 → c.queue.length ≤ 32

structure Fbc.KeepsForms (f g : Fbc) : Prop where
  fixtures : Table.wf f.fixtures = true → Table.wf g.fixtures = true
  sizes : f.fits → g.fits

structure Lkd.KeepsForms (l m : Lkd) : Prop where
  sizes : l.fits → m.fits

/-! ## The relation -/

/-- What O56 says of a step from `s` to `t`. -/
structure State.KeepsForms (s t : State) : Prop where
  memory : s.memoryWf → t.memoryWf
  tables : s.tablesWf → t.tablesWf
  sizes : s.tablesWf → s.bounded → t.bounded
  phases : s.phasesInRange → t.phasesInRange

namespace State.KeepsForms

protected theorem refl (s : State) : s.KeepsForms s := ⟨id, id, fun _ => id, id⟩

protected theorem trans {s t u : State} (h : s.KeepsForms t) (k : t.KeepsForms u) : s.KeepsForms u :=
  ⟨k.memory ∘ h.memory, k.tables ∘ h.tables, fun ht hb => k.sizes (h.tables ht) (h.sizes ht hb), k.phases ∘ h.phases⟩

variable {s t : State}

protected theorem foldl {β : Type} {f : State → β → State} {l : List β} (h : s.KeepsForms t)
    (hf : ∀ u b, s.KeepsForms u → s.KeepsForms (f u b)) : s.KeepsForms (l.foldl f t) := by
  induction l generalizing t with
  | nil => exact h
  | cons b rest ih => exact ih (hf t b h)

/-! ## Writing a block -/

protected theorem setRtu {x : Rtu} (h : s.KeepsForms t) : s.KeepsForms (t.setRtu x) :=
  ⟨h.memory, h.tables, h.sizes, h.phases⟩

protected theorem setLip {x : Lip} (h : s.KeepsForms t) : s.KeepsForms (t.setLip x) :=
  ⟨h.memory, h.tables, h.sizes, h.phases⟩

protected theorem setDou {x : Dou} (h : s.KeepsForms t) : s.KeepsForms (t.setDou x) :=
  ⟨h.memory, h.tables, h.sizes, h.phases⟩

protected theorem setCph {x : Cph} (h : s.KeepsForms t) (hx : t.cph.inRange → x.inRange) :
    s.KeepsForms (t.setCph x) :=
  ⟨h.memory, h.tables, h.sizes, fun hs =>
    (State.phasesInRange_iff _).mpr (hx ((State.phasesInRange_iff t).mp (h.phases hs)))⟩

protected theorem setFsc {x : Fsc} (h : s.KeepsForms t) (hx : t.fsc.KeepsForms x) : s.KeepsForms (t.setFsc x) where
  memory := hx.memory ∘ h.memory
  tables hs := by
    obtain ⟨regions, others⟩ := (State.tablesWf_iff t).mp (h.tables hs)
    exact (State.tablesWf_iff _).mpr ⟨hx.regions regions, others⟩
  sizes hs hb := by
    obtain ⟨link, posting, others⟩ := (State.bounded_iff t).mp (h.sizes hs hb)
    exact (State.bounded_iff _).mpr ⟨link, hx.posting posting, others⟩
  phases := h.phases

protected theorem setWse {x : Wse} (h : s.KeepsForms t) (hx : t.wse.KeepsForms x) : s.KeepsForms (t.setWse x) where
  memory := h.memory
  tables hs := by
    obtain ⟨regions, wse, others⟩ := (State.tablesWf_iff t).mp (h.tables hs)
    exact (State.tablesWf_iff _).mpr ⟨regions, hx.tables wse, others⟩
  sizes := h.sizes
  phases := h.phases

protected theorem setCue {x : CueEngine} (h : s.KeepsForms t) (hx : t.cue.KeepsForms x) :
    s.KeepsForms (t.setCue x) where
  memory := h.memory
  tables hs := by
    obtain ⟨regions, wse, cues, others⟩ := (State.tablesWf_iff t).mp (h.tables hs)
    exact (State.tablesWf_iff _).mpr ⟨regions, wse, hx.cues cues, others⟩
  sizes hs hb := by
    obtain ⟨link, posting, cue, others⟩ := (State.bounded_iff t).mp (h.sizes hs hb)
    exact (State.bounded_iff _).mpr ⟨link, posting, hx.sizes cue, others⟩
  phases := h.phases

protected theorem setLvp {x : Lvp} (h : s.KeepsForms t) (hx : t.lvp.KeepsForms x) : s.KeepsForms (t.setLvp x) where
  memory := h.memory
  tables hs := by
    obtain ⟨regions, wse, cues, fades, others⟩ := (State.tablesWf_iff t).mp (h.tables hs)
    exact (State.tablesWf_iff _).mpr ⟨regions, wse, cues, hx.fades fades, others⟩
  sizes hs hb := by
    obtain ⟨-, -, -, fades, -⟩ := (State.tablesWf_iff t).mp (h.tables hs)
    obtain ⟨link, posting, cue, lvp, others⟩ := (State.bounded_iff t).mp (h.sizes hs hb)
    exact (State.bounded_iff _).mpr ⟨link, posting, cue, hx.sizes fades lvp, others⟩
  phases := h.phases

protected theorem setFbc {x : Fbc} (h : s.KeepsForms t) (hx : t.fbc.KeepsForms x) : s.KeepsForms (t.setFbc x) where
  memory := h.memory
  tables hs := by
    obtain ⟨regions, wse, cues, fades, fixtures⟩ := (State.tablesWf_iff t).mp (h.tables hs)
    exact (State.tablesWf_iff _).mpr ⟨regions, wse, cues, fades, hx.fixtures fixtures⟩
  sizes hs hb := by
    obtain ⟨link, posting, cue, lvp, fbc⟩ := (State.bounded_iff t).mp (h.sizes hs hb)
    exact (State.bounded_iff _).mpr ⟨link, posting, cue, lvp, hx.sizes fbc⟩
  phases := h.phases

protected theorem setLkd {x : Lkd} (h : s.KeepsForms t) (hx : t.lkd.KeepsForms x) : s.KeepsForms (t.setLkd x) where
  memory := h.memory
  tables := h.tables
  sizes hs hb := by
    obtain ⟨link, others⟩ := (State.bounded_iff t).mp (h.sizes hs hb)
    exact (State.bounded_iff _).mpr ⟨hx.sizes link, others⟩
  phases := h.phases

end State.KeepsForms

/-! ## Notices, replies and the request queue, R172 to R176 -/

theorem Lkd.fits_raise (n : Notice) {l : Lkd} (h : l.fits) : (l.raise n).fits := by
  obtain ⟨requests, ready, dropped, errors⟩ := h
  obtain ⟨ready', dropped'⟩ := l.raise_bounded n ready dropped
  refine ⟨?_, ready', dropped', ?_⟩
  · rw [Lkd.raise_keeps Lkd.requests (fun _ _ _ => rfl)]
    exact requests
  · rw [Lkd.raise_keeps Lkd.linkErrors (fun _ _ _ => rfl)]
    exact errors

theorem Lkd.fits_addReply (n : Nat) (r : Reply) {l : Lkd} (h : l.fits) : (l.addReply n r).fits := by
  obtain ⟨requests, ready, dropped, errors⟩ := h
  refine ⟨?_, ?_, ?_, ?_⟩
  · rw [Lkd.addReply_keeps Lkd.requests (fun _ _ _ => rfl)]
    exact requests
  · rw [Lkd.addReply_noticeCount]
    exact ready
  · rw [Lkd.addReply_keeps Lkd.dropped (fun _ _ _ => rfl)]
    exact dropped
  · rw [Lkd.addReply_keeps Lkd.linkErrors (fun _ _ _ => rfl)]
    exact errors

/-- The queue of requests put in place of the one before is the only thing that its own size decides. -/
theorem Lkd.fits_requests {l : Lkd} {q : List QueuedRequest} (hq : q.length ≤ 4) (h : l.fits) :
    ({ l with requests := q } : Lkd).fits :=
  ⟨hq, h.2⟩

theorem satAdd_le (top n k : Nat) : satAdd top n k ≤ top := Nat.min_le_left _ _

namespace State.KeepsForms

variable {s t : State}

protected theorem raise {k : NoticeKind} {d : List Field} (h : s.KeepsForms t) : s.KeepsForms (raise k d t) :=
  h.setLkd ⟨Lkd.fits_raise _⟩

protected theorem answerHead {tag kind : Byte} {st : Status} {fields : List Field} (h : s.KeepsForms t) :
    s.KeepsForms (answerHead tag kind st fields t) :=
  h.setLkd ⟨fun fits =>
    have tail : t.lkd.requests.tail.length ≤ 4 := by
      rw [List.length_tail]
      exact le_trans (Nat.sub_le _ _) fits.1
    Lkd.fits_requests tail (Lkd.fits_addReply _ _ fits)⟩

protected theorem joinQueue {q : QueuedRequest} {tag kind : Byte} (h : s.KeepsForms t) :
    s.KeepsForms (joinQueue q tag kind t) := by
  unfold joinQueue
  split
  · exact h.setLkd ⟨Lkd.fits_requests (by simpa)⟩
  · exact h.setLkd ⟨Lkd.fits_addReply _ _⟩

end State.KeepsForms

/-! ## Answers and results -/

/-- Whatever a block answers, the state it leaves keeps the sizes and forms. -/
def Answer.KeepsForms (s : State) : Answer → Prop
  | .reply _ _ t => s.KeepsForms t
  | .withhold _ t => s.KeepsForms t

/-- So does the next state of a command, if it has one. -/
def State.KeepsFormsTo (s : State) (r : Result) : Prop := ∀ t, r = .next t → s.KeepsForms t

theorem Answer.KeepsForms.refuse {s : State} {st : Status} : (refuse st s).KeepsForms s := .refl s

theorem Answer.KeepsForms.checked {s : State} {checks : List (Bool × Status)} {ok : Answer} (h : ok.KeepsForms s) :
    (checked checks s ok).KeepsForms s := by
  unfold Machine.checked
  split
  · exact .refl s
  · exact h

theorem Answer.KeepsForms.ite {s : State} {c : Prop} [Decidable c] {a b : Answer} (ha : a.KeepsForms s)
    (hb : b.KeepsForms s) : (if c then a else b).KeepsForms s := by
  split
  · exact ha
  · exact hb

theorem Answer.readsIf.keepsForms {a : Answer} {s : State} {ok : Prop} (h : a.readsIf s ok) : a.KeepsForms s := by
  obtain ⟨st, fields, rfl, -⟩ := h
  exact .refl s

theorem State.KeepsFormsTo.next {s t : State} (h : s.KeepsForms t) : s.KeepsFormsTo (.next t) := by
  intro u hu
  cases hu
  exact h

theorem State.KeepsFormsTo.fault {s : State} {r : Fault} : s.KeepsFormsTo (.fault r) := by
  intro u hu
  cases hu

/-- R173: a request is handled with itself at the head of the queue, and the queue holds no more than it did or was
empty. -/
theorem State.takes.rest_short {s : State} {cmd : Instr} {rest : List QueuedRequest} (h : s.takes cmd rest)
    (fits : s.lkd.fits) : rest.length < 4 := by
  obtain ⟨-, ⟨-, rfl⟩ | hq⟩ := h
  · exact Nat.zero_lt_succ 3
  · have whole := fits.1
    rw [hq] at whole
    exact whole

theorem serve_keepsForms {cmd : Instr} {tag kind : Byte} {handle : State → Answer} {s : State}
    (hh : ∀ u, (handle u).KeepsForms u) : s.KeepsForms (serve cmd tag kind handle s) := by
  by_cases taken : ∃ rest, s.takes cmd rest
  · obtain ⟨rest, taken⟩ := taken
    have atHead : s.KeepsForms (s.atHead cmd rest) :=
      State.KeepsForms.setLkd (.refl s) ⟨fun fits => Lkd.fits_requests (taken.rest_short fits) fits⟩
    have handled := hh (s.atHead cmd rest)
    rw [serve_taken cmd tag kind handle rest s taken]
    cases ha : handle (s.atHead cmd rest) with
    | reply st fields t =>
      rw [ha] at handled
      have left := atHead.trans handled
      refine ⟨left.memory, left.tables, fun hs hb => ?_, left.phases⟩
      have short := taken.rest_short ((State.bounded_iff s).mp hb).1
      obtain ⟨link, others⟩ := (State.bounded_iff t).mp (left.sizes hs hb)
      exact (State.bounded_iff _).mpr ⟨Lkd.fits_requests (Nat.le_of_lt short) (Lkd.fits_addReply _ _ link), others⟩
    | withhold hold t =>
      rw [ha] at handled
      exact (atHead.trans handled).setLkd ⟨id⟩
  · rw [serve_waits cmd tag kind handle s (not_exists.mp taken)]
    exact State.KeepsForms.joinQueue (.refl s)

/-- A request that its block handles in a way that keeps the sizes and forms. -/
theorem served_keepsForms {cmd : Instr} {tag kind : Byte} {handle : State → Answer} {s : State}
    (hh : ∀ u, (handle u).KeepsForms u) : s.KeepsFormsTo (.next (serve cmd tag kind handle s)) :=
  .next (serve_keepsForms hh)

end Sys2Proof.Machine
end

section
/-! SUPPORT. Sizes and forms: the frame store, the posting buffer and the fixture bus. -/

namespace Sys2Proof.Machine

/-! ## Writing pixels touches the memory alone -/

theorem Fsc.writeCaptured_eq (f : Fsc) (r : Region) (pixels : List CapturePixel) :
    ∃ m, f.writeCaptured r pixels = { f with mem := m } := by
  unfold Fsc.writeCaptured
  induction pixels generalizing f with
  | nil => exact ⟨f.mem, rfl⟩
  | cons p rest ih =>
    obtain ⟨m, hm⟩ := f.writePixel_eq r p.buffer p.offset p.word
    obtain ⟨m', hm'⟩ := ih (f.writePixel r p.buffer p.offset p.word)
    exact ⟨m', by rw [List.foldl_cons, hm', hm]⟩

/-! ## Transmit queues, R161 -/

namespace BusPort

theorem length_mark (b : BusPort) (id : Nat) (h : b.queue.length ≤ 32) : (b.mark id).queue.length ≤ 32 := by
  unfold BusPort.mark
  split
  · exact h
  · split
    · next room =>
      simp only [Bool.and_eq_true, decide_eq_true_eq] at room
      simp only [List.length_append, List.length_singleton]
      omega
    · exact h

theorem length_fill (b : BusPort) (h : b.queue.length ≤ 32) : b.fill.queue.length ≤ 32 := by
  unfold BusPort.fill
  split
  · obtain ⟨ids, d, l, e, -, -, -, fits⟩ := b.admit_eq 32
    rw [e]
    simpa using fits h
  · exact h

theorem length_dropSending (b : BusPort) : b.dropSending.queue.length ≤ b.queue.length := List.length_filter_le _ _

theorem length_endAttempt (b : BusPort) (h : b.queue.length ≤ 32) : b.endAttempt.queue.length ≤ 32 := by
  unfold BusPort.endAttempt
  split
  · exact h
  · split
    · exact length_fill _ (le_trans b.length_dropSending h)
    · simpa using h

theorem length_begin (b : BusPort) (snapshot : List Nat) (address : Nat) :
    (b.begin snapshot address).queue.length = b.queue.length := by
  unfold BusPort.begin
  cases b.queue <;> rfl

end BusPort

namespace State.KeepsForms

variable {s t : State}

/-! ## Regions -/

protected theorem modRegion {id : Nat} {f : Region → Region} (h : s.KeepsForms t) : s.KeepsForms (modRegion id f t) :=
  h.setFsc ⟨fun h => h, Table.wf_modify id f, fun h => h⟩

protected theorem airUp {source : Option Nat} (h : s.KeepsForms t) : s.KeepsForms (airUp source t) := by
  cases source with
  | none => exact h
  | some id => exact h.modRegion

protected theorem airDown {source : Option Nat} (h : s.KeepsForms t) : s.KeepsForms (airDown source t) := by
  cases source with
  | none => exact h
  | some id => exact h.modRegion

protected theorem airMove {old new : Option Nat} (h : s.KeepsForms t) : s.KeepsForms (airMove old new t) := by
  unfold airMove
  split
  · exact h
  · exact h.airDown.airUp

protected theorem refUp {a : Action} (h : s.KeepsForms t) : s.KeepsForms (refUp a t) := by
  unfold refUp
  split
  · exact h.modRegion
  · exact h

protected theorem refDown {a : Action} (h : s.KeepsForms t) : s.KeepsForms (refDown a t) := by
  unfold refDown
  split
  · exact h.modRegion
  · exact h

protected theorem removeRegion {id : Nat} (h : s.KeepsForms t) : s.KeepsForms (removeRegion id t) :=
  h.setFsc ⟨fun h => h, Table.wf_erase id _, fun h => h⟩

/-! ## Ranks -/

protected theorem rankFault {i : Nat} {r : Rank} (h : s.KeepsForms t) : s.KeepsForms (rankFault i r t) := by
  unfold rankFault
  split
  · exact h
  · exact h.raise

protected theorem storeReady (h : s.KeepsForms t) : s.KeepsForms (storeReady t) := h.raise

/-! ## The posting buffer -/

protected theorem acceptEntry {e : PostEntry} (h : s.KeepsForms t) (room : t.fsc.posting.length < 8) :
    s.KeepsForms (acceptEntry e t) :=
  .setFsc (t := postedUp e.region t) h.modRegion
    ⟨id, id, fun _ => by simpa [postedUp, modRegion] using room⟩

protected theorem headLeaves {id : Nat} (h : s.KeepsForms t) : s.KeepsForms (headLeaves id t) :=
  State.KeepsForms.modRegion
    (h.setFsc ⟨fun h => h, fun h => h, fun fits => by rw [List.length_tail]; exact le_trans (Nat.sub_le _ _) fits⟩)

protected theorem discardHead {e : PostEntry} {r : Region} {cause : DiscardCause} (h : s.KeepsForms t) :
    s.KeepsForms (discardHead e r cause t) :=
  .headLeaves (.raise (h.setFsc ⟨id, id, id⟩))

protected theorem writePixels {r : Region} {pixels : List (Nat × Word)} (h : s.KeepsForms t) :
    s.KeepsForms (t.setFsc (t.fsc.writePixels r pixels)) := by
  obtain ⟨m, hm⟩ := t.fsc.writePixels_eq r pixels
  refine h.setFsc ⟨Fsc.wf_writePixels _ _ _, ?_, ?_⟩ <;> rw [hm] <;> exact id

protected theorem writeBurst {e : PostEntry} {rest : List PostEntry} {r : Region} (h : s.KeepsForms t)
    (head : t.fsc.posting = e :: rest) : s.KeepsForms (writeBurst e rest r t) := by
  unfold writeBurst
  dsimp only
  split
  · exact h.writePixels.headLeaves
  · obtain ⟨m, hm⟩ := t.fsc.writePixels_eq r (e.burst r)
    refine h.writePixels.setFsc ⟨id, id, ?_⟩
    simp [hm, head]

protected theorem retryEntry {tag kind : Byte} {failing : Option Status} {e : PostEntry} (h : s.KeepsForms t)
    (room : t.fsc.posting.length < 8) : s.KeepsForms (retryEntry tag kind failing e t) := by
  unfold retryEntry
  split
  · exact h.answerHead
  · exact (h.acceptEntry room).answerHead

/-! ## Fixture bus ports -/

protected theorem setPort {p : Port} {x : BusPort} (h : s.KeepsForms t)
    (hx : (t.port p).KeepsForms x) : s.KeepsForms (setPort p x t) := by
  cases p with
  | a => exact h.setFbc ⟨id, fun ⟨a, b⟩ => ⟨hx.queue a, b⟩⟩
  | b => exact h.setFbc ⟨id, fun ⟨a, b⟩ => ⟨a, hx.queue b⟩⟩

protected theorem enterPort {p : Port} {new : PortState} {cause : PortCause} (h : s.KeepsForms t) :
    s.KeepsForms (enterPort p new cause t) := by
  unfold enterPort
  dsimp only
  split
  · exact h.setPort ⟨id⟩
  · exact .raise (h.setPort ⟨id⟩)

protected theorem markDirty {id : Nat} (h : s.KeepsForms t) : s.KeepsForms (markDirty id t) := by
  unfold markDirty
  split
  · exact h
  · exact h.setPort ⟨BusPort.length_mark _ _⟩

protected theorem markChannel {c : Nat} (h : s.KeepsForms t) : s.KeepsForms (markChannel c t) :=
  h.foldl fun u e hu => by
    split
    · exact hu.markDirty
    · exact hu

protected theorem settlePort {p : Port} (h : s.KeepsForms t) : s.KeepsForms (settlePort p t) := by
  unfold settlePort
  dsimp only
  split
  · exact .enterPort (h.setPort ⟨fun _ => Nat.zero_le 32⟩)
  · exact h.enterPort

/-! ## Fixtures -/

protected theorem modFixture {id : Nat} {f : Fixture → Fixture} (h : s.KeepsForms t) :
    s.KeepsForms (modFixture id f t) :=
  h.setFbc ⟨Table.wf_modify id f, fun h => h⟩

protected theorem enterFixture {id : Nat} {new : FixtureState} (h : s.KeepsForms t) :
    s.KeepsForms (enterFixture id new t) := by
  unfold enterFixture
  split
  · exact h
  · dsimp only
    split
    · exact h.modFixture
    · exact h.modFixture.raise

protected theorem fixtureStatus {p : Port} {id : Nat} {payload : List Byte} (h : s.KeepsForms t) :
    s.KeepsForms (fixtureStatus p id payload t) := by
  unfold fixtureStatus
  split
  · split
    · exact h.modFixture.enterFixture
    · exact h.setPort ⟨fun h => h⟩
  · exact h.setPort ⟨fun h => h⟩

protected theorem fixtureClash {p : Port} {id address : Nat} (h : s.KeepsForms t) :
    s.KeepsForms (fixtureClash p id address t) := by
  unfold fixtureClash
  split
  · exact h
  · dsimp only
    split
    · exact h.modFixture
    · exact h.modFixture.raise

protected theorem fixtureLogic {p : Port} {identifier : Nat} {payload : List Byte} (h : s.KeepsForms t) :
    s.KeepsForms (fixtureLogic p identifier payload t) := by
  unfold fixtureLogic
  split
  · split
    · exact h.fixtureStatus
    · split
      · exact h
      · exact .raise (h.setPort ⟨id⟩)
  · split
    · exact h.fixtureClash
    · exact h

protected theorem compareSent {id : Nat} {snapshot : List Nat} (h : s.KeepsForms t) :
    s.KeepsForms (compareSent id snapshot t) := by
  unfold compareSent
  split
  · exact h
  · split
    · exact h
    · exact h.markDirty

protected theorem keepAliveTick {id : Nat} (h : s.KeepsForms t) : s.KeepsForms (keepAliveTick id t) := by
  unfold keepAliveTick
  split
  · exact h
  · split
    · exact h.modFixture.markDirty
    · exact h.modFixture

protected theorem silenceTick {id : Nat} (h : s.KeepsForms t) : s.KeepsForms (silenceTick id t) := by
  unfold silenceTick
  split
  · exact h
  · split
    · dsimp only
      split
      · exact h.modFixture.enterFixture
      · exact h.modFixture
    · exact h

protected theorem fbcAtBoundary (h : s.KeepsForms t) : s.KeepsForms (fbcAtBoundary t) :=
  h.foldl fun _ _ hu => hu.keepAliveTick.silenceTick

protected theorem changeBus {p : Port} {enable : Bool} {rate : Option Nat} (h : s.KeepsForms t) :
    s.KeepsForms (changeBus p enable rate t) := by
  unfold changeBus
  dsimp only
  split
  · exact .setPort (.enterPort (h.setPort ⟨id⟩)) ⟨BusPort.length_fill _⟩
  · exact h
  · exact .enterPort (h.setPort ⟨fun _ => Nat.zero_le 32⟩)
  · exact h.setPort ⟨id⟩

protected theorem removeFixture {id : Nat} (h : s.KeepsForms t) : s.KeepsForms (removeFixture id t) := by
  unfold removeFixture
  split
  · exact h
  · refine .setPort (h.setFbc ⟨Table.wf_erase id _, fun h => h⟩) ⟨fun fits => ?_⟩
    apply BusPort.length_fill
    rw [List.length_map]
    exact le_trans (List.length_filter_le _ _) fits

end State.KeepsForms

/-! ## Commands of the frame store -/

section

variable {s : State}

theorem execRankSized_keepsForms {o : RankOutcome} : s.KeepsFormsTo (execRankSized o s) := by
  have sized {i : Nat} {r : Rank} :
      s.KeepsForms (rankFault i r (s.setFsc { s.fsc with ranks := put s.fsc.ranks i r, sizingAt := i + 1 })) :=
    .rankFault (.setFsc (.refl s) ⟨id, id, id⟩)
  unfold execRankSized
  split
  · dsimp only
    split
    · exact .next (.storeReady (sized.setFsc ⟨id, id, id⟩))
    · exact .next sized
  · exact .next (.refl s)

theorem defineRegion_keepsForms {q : DefineRegionReq} : (defineRegion q s).KeepsForms s := by
  unfold defineRegion
  split
  · exact .refuse
  · exact .refuse
  · exact .checked (.setFsc (.refl s) ⟨id, Table.wf_insert _ _ _, id⟩)

theorem deleteRegion_keepsForms {id : Nat} : (deleteRegion id s).KeepsForms s := by
  unfold deleteRegion
  split
  · exact .refuse
  · exact .refuse
  · split
    · exact .refuse
    · split
      · exact .removeRegion (.refl s)
      · exact .refl s

theorem execRegionRemoval_keepsForms : s.KeepsFormsTo (execRegionRemoval s) := by
  unfold execRegionRemoval
  split
  · split
    · split
      · exact .next (.answerHead (.removeRegion (.refl s)))
      · exact .next (.refl s)
    · exact .next (.refl s)
  · exact .next (.refl s)

theorem setShowLock_keepsForms : (setShowLock s).KeepsForms s := .setFsc (.refl s) ⟨id, id, id⟩

theorem placeEntry_keepsForms {failing : Option Status} {e : PostEntry} : (placeEntry failing e s).KeepsForms s := by
  unfold placeEntry
  split
  · exact .refuse
  · split
    · next room => exact .acceptEntry (.refl s) room
    · exact .refl s

theorem execWaitingRequestAccept_keepsForms : s.KeepsFormsTo (execWaitingRequestAccept s) := by
  unfold execWaitingRequestAccept
  split
  · next room =>
    split
    · exact .next (.retryEntry (.refl s) room.2)
    · exact .next (.retryEntry (.refl s) room.2)
    · exact .next (.refl s)
  · exact .next (.refl s)

theorem execBurstGrant_keepsForms {asks : Asks} : s.KeepsFormsTo (execBurstGrant asks s) := by
  unfold execBurstGrant
  split
  · split
    · exact .next (.refl s)
    · next head =>
      split
      · exact .next (.headLeaves (.refl s))
      · split
        · exact .next (.discardHead (.refl s))
        · split
          · exact .next (.writeBurst (.refl s) head)
          · exact .fault
  · exact .next (.refl s)

theorem readContent_keepsForms {q : ReadContentReq} : (readContent q s).KeepsForms s := by
  unfold readContent
  repeat' split
  all_goals exact .refl s

theorem execReadProceeds_keepsForms : s.KeepsFormsTo (execReadProceeds s) := by
  have granted : s.KeepsForms (s.setLkd { s.lkd with hold := .readGrant }) := .setLkd (.refl s) ⟨id⟩
  unfold execReadProceeds
  repeat' split
  all_goals first
    | exact .next granted
    | exact .next (.refl s)

theorem execContentReadGrant_keepsForms {asks : Asks} : s.KeepsFormsTo (execContentReadGrant asks s) := by
  unfold execContentReadGrant
  repeat' split
  all_goals first
    | exact .next (.refl s)
    | exact .next (.answerHead (.refl s))
    | exact .fault

/-! ## Commands of the fixture bus -/

theorem execPortJoined_keepsForms {p : Port} : s.KeepsFormsTo (execPortJoined p s) := by
  unfold execPortJoined
  split
  · exact .next (.enterPort ((State.KeepsForms.refl s).setPort ⟨id⟩))
  · exact .next (.refl s)

theorem execQuietPeriod_keepsForms {p : Port} : s.KeepsFormsTo (execQuietPeriod p s) := by
  unfold execQuietPeriod
  split
  · exact .next ((State.KeepsForms.refl s).setPort ⟨id⟩)
  · exact .next (.refl s)

theorem execPortRecovered_keepsForms {p : Port} : s.KeepsFormsTo (execPortRecovered p s) := by
  unfold execPortRecovered
  dsimp only
  split
  · exact .next (.setPort (.enterPort (.setPort (.refl s) ⟨id⟩)) ⟨BusPort.length_fill (dirtyAll p _ _)⟩)
  · exact .next (.refl s)

theorem execSendStart_keepsForms {p : Port} {idleBits : Nat} : s.KeepsFormsTo (execSendStart p idleBits s) := by
  unfold execSendStart
  dsimp only
  split
  · split
    · exact .next (.refl s)
    · split
      · exact .next (.refl s)
      · exact .next ((State.KeepsForms.refl s).setPort ⟨BusPort.length_begin _ _ _ ▸ id⟩)
  · exact .next (.refl s)

theorem execLostArbitration_keepsForms {p : Port} : s.KeepsFormsTo (execLostArbitration p s) := by
  unfold execLostArbitration
  dsimp only
  split
  · exact .next (.refl s)
  · exact .next ((State.KeepsForms.refl s).setPort ⟨BusPort.length_endAttempt _⟩)

theorem execSendSuccess_keepsForms {p : Port} : s.KeepsFormsTo (execSendSuccess p s) := by
  unfold execSendSuccess
  dsimp only
  split
  · exact .next (.refl s)
  · have ended := (State.KeepsForms.refl s).setPort (p := p)
      (x := { s.port p with txe := (s.port p).txe - 1, drive := .released, lastOwn := true }) ⟨id⟩
    have settled := ended.settlePort (p := p)
    have refilled := settled.setPort (p := p) ⟨fun fits =>
      BusPort.length_fill _ (le_trans (BusPort.length_dropSending _) fits)⟩
    split
    · exact .next refilled.modFixture.compareSent
    · exact .next refilled

theorem execValidReception_keepsForms {p : Port} {r : BusReception} : s.KeepsFormsTo (execValidReception p r s) := by
  unfold execValidReception
  dsimp only
  split
  · split
    · exact .next (.refl s)
    · split
      · exact .next ((State.KeepsForms.refl s).setPort ⟨id⟩)
      · split
        · exact .next (.fixtureLogic (.settlePort ((State.KeepsForms.refl s).setPort ⟨id⟩)))
        · exact .next (.settlePort ((State.KeepsForms.refl s).setPort ⟨id⟩))
  · exact .next (.refl s)

theorem execBusError_keepsForms {p : Port} {e : BusFault} : s.KeepsFormsTo (execBusError p e s) := by
  unfold execBusError
  dsimp only
  split
  · split
    · split
      · exact .next ((State.KeepsForms.refl s).setPort ⟨id⟩)
      · exact .next (.refl s)
    · refine .next (.setPort (.settlePort (.setPort (.refl s) ⟨fun fits => ?_⟩)) ⟨BusPort.length_endAttempt _⟩)
      split <;> exact fits
  · exact .next (.refl s)

theorem setBus_keepsForms {q : SetBusReq} : (setBus q s).KeepsForms s := by
  unfold setBus
  split
  · exact .refuse
  · exact .ite .refuse (.changeBus (.refl s))
  · exact .refuse

theorem setFilter_keepsForms {q : SetFilterReq} : (setFilter q s).KeepsForms s := by
  unfold setFilter
  split
  · exact .refuse
  · split
    · exact .refuse
    · exact .setPort (.refl s) ⟨id⟩
  · exact .refuse

theorem defineFixture_keepsForms {q : DefineFixtureReq} : (defineFixture q s).KeepsForms s := by
  unfold defineFixture
  split
  · exact .refuse
  · exact .refuse
  · exact .checked
      (.markDirty (.setFbc (.removeFixture (.refl s)) ⟨Table.wf_insert _ _ _, id⟩))

theorem deleteFixture_keepsForms {id : Nat} : (deleteFixture id s).KeepsForms s := by
  unfold deleteFixture
  split
  · exact .refuse
  · exact .refuse
  · exact .removeFixture (.refl s)

end

end Sys2Proof.Machine
end

section
/-! SUPPORT. Sizes and forms: levels, fades and the cue engine. -/

namespace Sys2Proof.Machine

/-! ## Sizes of the fade table and of the lists -/

theorem Lvp.fits_fades {l : Lvp} {fades : Table Fade} (hf : fades.length ≤ 256) (h : l.fits) :
    ({ l with fades := fades } : Lvp).fits :=
  ⟨hf, h.2⟩

theorem CueEngine.fits_active {c : CueEngine} {active : List Active} (ha : active.length ≤ c.active.length)
    (h : c.fits) : ({ c with active := active } : CueEngine).fits :=
  ⟨h.1, le_trans ha h.2⟩

theorem firstFailing_none (checks : List (Bool × Status)) (h : firstFailing checks = none) :
    ∀ c ∈ checks, c.1 = false := by
  induction checks with
  | nil => simp
  | cons c rest ih =>
    obtain ⟨failed, st⟩ := c
    cases failed with
    | true => cases h
    | false => exact List.forall_mem_cons.mpr ⟨rfl, ih h⟩

/-- A manual fade takes the place of the pending one for its target, or one place more. -/
theorem length_placeManual (m : ManualFade) (l : List ManualFade) :
    (placeManual m l).length = if l.any (fun x => decide (x.target = m.target)) then l.length else l.length + 1 := by
  induction l with
  | nil => rfl
  | cons x rest ih =>
    by_cases hx : x.target = m.target
    · simp [placeManual, hx]
    · simp only [placeManual, hx, if_false, List.length_cons, ih, List.any_cons, decide_false, Bool.false_or]
      split <;> rfl

namespace State.KeepsForms

variable {s t : State}

/-! ## Counts of the active cues and their completion -/

protected theorem modCount {n : Nat} {f : Nat → Nat} (h : s.KeepsForms t) : s.KeepsForms (modCount n f t) :=
  h.setCue ⟨id, CueEngine.fits_active (by rw [List.length_map])⟩

protected theorem raiseCount {o : Owner} (h : s.KeepsForms t) : s.KeepsForms (raiseCount o t) := by
  cases o with
  | cue n => exact h.modCount
  | manual => exact h

protected theorem lowerCount {o : Owner} (h : s.KeepsForms t) : s.KeepsForms (lowerCount o t) := by
  cases o with
  | cue n => exact h.modCount (n := n) (f := (· - 1))
  | manual => exact h

protected theorem startFollow (h : s.KeepsForms t) : s.KeepsForms (t.setCue t.cue.startFollow) := by
  refine h.setCue ⟨?_, ?_⟩ <;> unfold CueEngine.startFollow <;> split <;> exact fun hx => hx

protected theorem completeCue {a : Active} (h : s.KeepsForms t) : s.KeepsForms (completeCue a t) := by
  have left : s.KeepsForms
      (t.setCue { t.cue with active := t.cue.active.filter (fun x => decide (x.cue ≠ a.cue)) }) :=
    h.setCue ⟨id, CueEngine.fits_active (List.length_filter_le _ _)⟩
  unfold completeCue
  dsimp only
  split
  · exact left.raise.startFollow
  · exact left.raise

protected theorem judge {firing : Option Nat} (h : s.KeepsForms t) : s.KeepsForms (judge firing t) :=
  h.foldl fun _ _ hu => hu.completeCue

/-! ## Levels -/

protected theorem putChannel {c : Nat} {x : Channel} (h : s.KeepsForms t) : s.KeepsForms (putChannel c x t) :=
  h.setLvp ⟨id, fun _ => id⟩

protected theorem recompute {c : Nat} (h : s.KeepsForms t) : s.KeepsForms (recompute c t) := by
  unfold recompute
  dsimp only
  split
  · exact h.putChannel
  · exact h.putChannel.markChannel

protected theorem recomputeAll (h : s.KeepsForms t) : s.KeepsForms (recomputeAll t) :=
  h.foldl fun _ _ hu => hu.recompute

protected theorem setLevel {target v : Nat} (h : s.KeepsForms t) : s.KeepsForms (setLevel target v t) := by
  unfold setLevel
  split
  · exact h
  · dsimp only
    split
    · exact .recompute (h.setLvp ⟨id, fun _ => id⟩)
    · split
      · exact .recomputeAll (h.setLvp ⟨id, fun _ => id⟩)
      · exact h.setLvp ⟨id, fun _ => id⟩

/-! ## Fades -/

protected theorem removeFade {target : Nat} (h : s.KeepsForms t) : s.KeepsForms (removeFade target t) := by
  unfold removeFade
  split
  · exact h
  · exact .lowerCount (h.setLvp ⟨Table.wf_erase target _, fun _ fits =>
      Lvp.fits_fades (le_trans (Table.length_erase_le target _) fits.1) fits⟩)

protected theorem advanceFade {a target : Nat} (h : s.KeepsForms t) : s.KeepsForms (advanceFade a target t) := by
  unfold advanceFade
  split
  · exact h
  · next f running =>
    split
    · exact h.setLevel.removeFade
    · exact .setLevel (h.setLvp ⟨Table.wf_insert target _ _, fun wf fits =>
        Lvp.fits_fades (Table.length_insert_taken target _ f _ wf running ▸ fits.1) fits⟩)

protected theorem advanceFades {a : Nat} (h : s.KeepsForms t) : s.KeepsForms (advanceFades a t) :=
  h.foldl fun _ _ hu => hu.advanceFade

protected theorem startFade {target stop duration curve : Nat} {owner : Owner} (h : s.KeepsForms t) :
    s.KeepsForms (startFade target stop duration curve owner t) := by
  unfold startFade
  dsimp only
  split
  · exact h.removeFade.setLevel
  · split
    · next room =>
      exact .raiseCount (h.removeFade.setLvp ⟨Table.wf_insert target _ _, fun _ fits =>
        Lvp.fits_fades (le_trans (Table.length_insert_le target _ _) room) fits⟩)
    · exact h.removeFade.setLevel.setLvp ⟨id, fun _ => id⟩

protected theorem startManual (h : s.KeepsForms t) : s.KeepsForms (startManual t) :=
  .foldl (h.setLvp ⟨id, fun _ fits => ⟨fits.1, Nat.zero_le 32⟩⟩) fun _ _ hu => hu.startFade.judge

protected theorem trackChannel {z : Nat} {avg : Averages} {c : Nat} (h : s.KeepsForms t) :
    s.KeepsForms (trackChannel z avg c t) := by
  unfold trackChannel
  dsimp only
  split
  · exact h.putChannel.recompute
  · exact h

protected theorem trackZone {z : Nat} {avg : Averages} (h : s.KeepsForms t) : s.KeepsForms (trackZone z avg t) :=
  h.foldl fun _ _ hu => hu.trackChannel

protected theorem configureChannel {mode : ChannelMode} {component : Component} {q : SetChannelReq} {c : Nat}
    (h : s.KeepsForms t) : s.KeepsForms (configureChannel mode component q c t) :=
  h.putChannel.recompute

/-! ## Actions -/

protected theorem modWall {w : Nat} {f : Wall → Wall} (h : s.KeepsForms t) : s.KeepsForms (modWall w f t) :=
  h.setWse ⟨fun ⟨walls, others⟩ => ⟨Table.wf_modify w f walls, others⟩⟩

protected theorem changeLayer {w layer : Nat} {l : Layer} (h : s.KeepsForms t) :
    s.KeepsForms (changeLayer w layer l t) := by
  unfold changeLayer
  split
  · exact h
  · exact h.airMove.modWall

protected theorem effect {owner : Owner} {a : Action} (h : s.KeepsForms t) : s.KeepsForms (a.effect owner t) := by
  cases a with
  | layerSource => exact h.changeLayer
  | layerFade | wallFade | masterFade => exact h.startFade
  | levelFade => exact h.foldl fun _ _ hu => hu.startFade
  | wallMode => exact h.modWall

protected theorem runAction {owner : Option Nat} {position : Nat} {fromWait : Bool} {a : Action}
    (h : s.KeepsForms t) : s.KeepsForms (runAction owner position fromWait a t) := by
  unfold runAction
  split
  · exact h.raise
  · exact h.effect

/-! ## Firing -/

protected theorem supersede {a : Active} (h : s.KeepsForms t) : s.KeepsForms (supersede a t) := by
  have left := h.setCue (x := { t.cue with
      active := t.cue.active.filter (fun x => decide (x.cue ≠ a.cue))
      waits := t.cue.waits.map (fun e => if e.owner = some a.cue then { e with owner := none } else e) })
    ⟨id, fun fits => ⟨by rw [List.length_map]; exact fits.1, le_trans (List.length_filter_le _ _) fits.2⟩⟩
  exact (left.setLvp ⟨Table.wf_mapAll _, fun _ fits =>
    Lvp.fits_fades (by rw [Table.length_mapAll]; exact fits.1) fits⟩).raise

protected theorem makeRoom {n : Nat} (h : s.KeepsForms t) : s.KeepsForms (makeRoom n t) := by
  unfold makeRoom
  split
  · exact h.supersede
  · split
    · split
      · exact h.supersede
      · exact h
    · exact h

end State.KeepsForms

theorem length_laterEntries (a : Nat) (waits : List WaitEntry) : (laterEntries a waits).length ≤ waits.length := by
  unfold laterEntries
  rw [List.length_map]
  exact List.length_filter_le _ _

/-- A superseded cue leaves the list of active cues. -/
theorem active_supersede_lt (a : Active) (s : State) (ha : a ∈ s.cue.active) :
    (supersede a s).cue.active.length < s.cue.active.length :=
  List.length_filter_lt_length_iff_exists.mpr ⟨a, ha, by simp⟩

/-- R124: after room is made, a place is free for the cue that fires. -/
theorem active_makeRoom_lt (n : Nat) (s : State) (h : s.cue.active.length ≤ 16) :
    (makeRoom n s).cue.active.length < 16 := by
  unfold makeRoom
  split
  · next a found => exact lt_of_lt_of_le (active_supersede_lt a s (List.mem_of_find?_eq_some found)) h
  · split
    · next full =>
      cases hd : s.cue.active with
      | nil => simp [hd] at full
      | cons a rest =>
        have ha : a ∈ s.cue.active := by simp [hd]
        exact lt_of_lt_of_le (active_supersede_lt a s ha) h
    · omega

namespace State.KeepsForms

variable {s t : State}

protected theorem addWait {n position delay : Nat} {a : Action} (h : s.KeepsForms t)
    (room : t.cue.waits.length < 128) : s.KeepsForms (addWait n position delay a t) := by
  have same : (refUp a (modCount n (· + 1) t)).cue.waits = t.cue.waits :=
    refUp_keeps (fun u => u.cue.waits) (fun _ _ => rfl) a (modCount n (· + 1) t)
  refine h.modCount.refUp.setCue ⟨id, fun fits => ⟨?_, fits.2⟩⟩
  rw [List.length_append, same]
  exact room

protected theorem fireAction {n position : Nat} {ta : TimedAction} {f : Firing} (h : s.KeepsForms f.state) :
    s.KeepsForms (fireAction n position ta f).state := by
  unfold fireAction
  split
  · exact h.runAction.judge
  · split
    · next room => exact h.addWait room
    · exact h.runAction.judge.setCue ⟨id, id⟩

protected theorem fireActions {n position : Nat} {l : List TimedAction} {f : Firing} (h : s.KeepsForms f.state) :
    s.KeepsForms (fireActions n position l f).state := by
  induction l generalizing position f with
  | nil => exact h
  | cons ta rest ih => exact ih h.fireAction

/-- R123, R124: a cue that fires comes behind the active ones, after room is made for it. -/
protected theorem makeActive {n : Nat} {a : Active} (h : s.KeepsForms t) :
    s.KeepsForms ((makeRoom n t).setCue { (makeRoom n t).cue with active := (makeRoom n t).cue.active ++ [a] }) := by
  have room := h.makeRoom (n := n)
  refine ⟨room.memory, room.tables, fun hs hb => ?_, room.phases⟩
  obtain ⟨-, -, before, -⟩ := (State.bounded_iff t).mp (h.sizes hs hb)
  obtain ⟨link, posting, cue, others⟩ := (State.bounded_iff _).mp (room.sizes hs hb)
  refine (State.bounded_iff _).mpr ⟨link, posting, ⟨cue.1, ?_⟩, others⟩
  rw [State.setCue_cue, List.length_append]
  exact active_makeRoom_lt n t before.2

protected theorem fireCue {n : Nat} {source : FireSource} (h : s.KeepsForms t) :
    s.KeepsForms (fireCue n source t) := by
  unfold fireCue
  split
  · exact h
  · refine .judge (.raise (.fireActions ?_))
    exact .makeActive (h.setCue ⟨id, id⟩)

/-! ## The boundary -/

protected theorem advanceTime {a : Nat} (h : s.KeepsForms t) : s.KeepsForms (advanceTime a t) :=
  .judge (.setCue h.advanceFades ⟨fun h => h, by
    exact fun fits => ⟨le_trans (length_laterEntries a _) fits.1, fits.2⟩⟩)

protected theorem runDue {e : WaitEntry} (h : s.KeepsForms t) : s.KeepsForms (runDue e t) :=
  h.runAction.refDown.lowerCount.judge

protected theorem tallyFire {rises : List Nat} (h : s.KeepsForms t) : s.KeepsForms (tallyFire rises t) := by
  unfold tallyFire
  split
  · split
    · exact h.fireCue
    · exact h
  · exact h

protected theorem chooseFire {ran : Bool} {a : Nat} {rises : List Nat} (h : s.KeepsForms t) :
    s.KeepsForms (chooseFire ran a rises t) := by
  unfold chooseFire
  split
  · exact .fireCue (h.setCue ⟨id, id⟩)
  · split
    · dsimp only
      split
      · exact .fireCue (h.setCue ⟨id, id⟩)
      · exact .tallyFire (h.setCue ⟨id, id⟩)
    · exact h.tallyFire

protected theorem cueAtBoundary {rises : List Nat} (h : s.KeepsForms t) : s.KeepsForms (cueAtBoundary rises t) := by
  have begun : s.KeepsForms (t.setCue { t.cue with step := none }) := h.setCue ⟨id, id⟩
  unfold cueAtBoundary
  dsimp only
  refine .chooseFire (.foldl (.startManual ?_) fun _ _ hu => hu.runDue)
  split
  · exact begun
  · exact begun.advanceTime

/-! ## Storing and deleting cues -/

protected theorem replaceCue {n : Nat} {c : Cue} (h : s.KeepsForms t) : s.KeepsForms (replaceCue n c t) :=
  State.KeepsForms.setCue
    (.foldl (.foldl h fun _ _ hu => hu.refDown) fun _ _ hu => hu.refUp)
    ⟨Table.wf_insert n c _, id⟩

protected theorem removeCue {n : Nat} {c : Cue} (h : s.KeepsForms t) : s.KeepsForms (removeCue n c t) :=
  .setCue (.foldl h fun _ _ hu => hu.refDown) ⟨Table.wf_erase n _, id⟩

end State.KeepsForms

/-! ## Requests to the Level Processor -/

section

variable {s : State}

theorem setCurve_keepsForms {curve : Nat} {points : List Nat} : (setCurve curve points s).KeepsForms s := by
  unfold setCurve
  split
  · exact .refuse
  · exact .refuse
  · exact .setLvp (.refl s) ⟨id, fun _ => id⟩

/-- R138: a manual fade replaces the pending one for its target, or finds a place free. -/
theorem fade_keepsForms {q : FadeReq} : (fade q s).KeepsForms s := by
  unfold fade checked
  dsimp only
  split
  · exact .refuse
  · next passed =>
    refine .setLvp (.refl s) ⟨id, fun _ fits => ⟨fits.1, ?_⟩⟩
    have place : (!s.lvp.manual.any (fun m => decide (m.target = q.target)) && decide (32 ≤ s.lvp.manual.length)) =
        false := firstFailing_none _ passed (_, .full) (.tail _ (.tail _ (.head _)))
    have pending := fits.2
    dsimp only
    rw [length_placeManual]
    split
    · exact pending
    · next new =>
      simp only [new, Bool.not_false, Bool.true_and, decide_eq_false_iff_not] at place
      omega

theorem setChannel_keepsForms {q : SetChannelReq} : (setChannel q s).KeepsForms s := by
  unfold setChannel
  split
  · exact .refuse
  · exact .foldl (.refl s) fun _ _ hu => hu.configureChannel
  · exact .refuse

/-! ## Requests to the Cue Engine -/

theorem storeCue_keepsForms {q : StoreCueReq} : (storeCue q s).KeepsForms s := by
  unfold storeCue
  split
  · exact .refuse
  · exact .checked (.replaceCue (.refl s))

theorem deleteCue_keepsForms {n : Nat} : (deleteCue n s).KeepsForms s := by
  unfold deleteCue
  split
  · exact .refuse
  · exact .refuse
  · exact .removeCue (.refl s)

theorem standby_keepsForms {n : Nat} : (standby n s).KeepsForms s := .checked (.setCue (.refl s) ⟨id, id⟩)

theorem go_keepsForms : (go s).KeepsForms s := by
  unfold go
  split
  · exact .refuse
  · exact .refuse
  · exact .setCue (.refl s) ⟨id, id⟩

theorem goCue_keepsForms {n : Nat} : (goCue n s).KeepsForms s := .checked (.setCue (.refl s) ⟨id, id⟩)

theorem cancelGo_keepsForms : (cancelGo s).KeepsForms s := by
  unfold cancelGo
  split
  · exact .refuse
  · exact .setCue (.refl s) ⟨id, id⟩

theorem holdCue_keepsForms : (holdCue s).KeepsForms s := .checked (.setCue (.refl s) ⟨id, id⟩)

theorem releaseCue_keepsForms : (releaseCue s).KeepsForms s := .checked (.setCue (.refl s) ⟨id, id⟩)

theorem stepCue_keepsForms {n : Nat} : (stepCue n s).KeepsForms s := .checked (.setCue (.refl s) ⟨id, id⟩)

end

end Sys2Proof.Machine
end

section
/-! SUPPORT. Sizes and forms: cameras, live input, walls and the pixel path. -/

namespace Sys2Proof.Machine

/-! ## The circle of phase units, R22, R24 -/

theorem slewStep_lt (phase target limit : Nat) : slewStep phase target limit < 1024 := by
  unfold slewStep
  dsimp only
  split <;> omega

namespace Cph

theorem inRange_camera (i : Nat) {c : Cph} (h : c.inRange) : (c.camera i).phase < 1024 := by
  obtain ⟨-, -, -, -, -, cameras⟩ := h
  rcases at_mem c.cameras i Camera.reset with e | hm
  · rw [Cph.camera, e]
    decide
  · exact cameras _ hm

theorem inRange_put (i : Nat) {x : Camera} {c : Cph} (hx : x.phase < 1024) (h : c.inRange) :
    ({ c with cameras := put c.cameras i x } : Cph).inRange := by
  obtain ⟨phase, target, idle, low, high, cameras⟩ := h
  refine ⟨phase, target, idle, low, high, fun y hy => ?_⟩
  rcases mem_put c.cameras i x y hy with rfl | hy
  · exact hx
  · exact cameras y hy

theorem inRange_sample (lines : BitVec 8) {c : Cph} (h : c.inRange) : (c.sample lines).inRange := by
  obtain ⟨phase, target, idle, low, high, cameras⟩ := h
  refine ⟨phase, target, idle, low, high, fun y hy => ?_⟩
  obtain ⟨i, x, hx, rfl⟩ := mem_mapFrom _ 0 c.cameras.toList y hy
  exact cameras x hx

theorem inRange_step {c : Cph} (h : c.inRange) : c.step.inRange := by
  have target : c.targetFor c.settle < 1024 := by
    cases c.settle with
    | none => exact h.2.2.1
    | some i => exact inRange_camera i h
  obtain ⟨-, -, idle, low, high, cameras⟩ := h
  exact ⟨slewStep_lt _ _ _, target, idle, low, high, cameras⟩

end Cph

theorem Camera.newProfile_phase_lt (c d : Camera) (q : SetCameraReq) (hc : c.phase < 1024)
    (h : c.newProfile q = some d) : d.phase < 1024 := by
  unfold Camera.newProfile at h
  split at h
  · next ph pr so po hph hpr hso hpo =>
    cases h
    cases hq : q.phase with
    | none =>
      rw [hq] at hph
      cases hph
      exact hc
    | some n =>
      simp only [hq, keepOr, Option.ite_none_right_eq_some, Option.some.injEq] at hph
      dsimp only
      omega
  · cases h

/-! ## Walls whose numbers stay -/

theorem ids_admitAcross (layer total : Nat) (walls : Table Wall) :
    Table.ids (admitAcross layer total walls).2 = walls.ids := by
  induction walls generalizing total with
  | nil => rfl
  | cons e rest ih =>
    unfold admitAcross
    split <;> exact congrArg (e.1 :: ·) (ih _)

theorem ids_admitAll (total : Nat) (walls : Table Wall) : Table.ids (admitAll total walls).2 = walls.ids := by
  simp only [admitAll, List.foldl_cons, List.foldl_nil, ids_admitAcross]

namespace State.KeepsForms

variable {s t : State}

/-! ## Cameras -/

protected theorem cphAtBoundary {lines : BitVec 8} (h : s.KeepsForms t) : s.KeepsForms (cphAtBoundary lines t) := by
  have stepped : s.KeepsForms (t.setCph (t.cph.sample lines).step) :=
    h.setCph fun hc => Cph.inRange_step (Cph.inRange_sample lines hc)
  unfold cphAtBoundary cameraChange
  split
  · exact stepped
  · exact stepped.raise

protected theorem setLines {lines : BitVec 8} (h : s.KeepsForms t) : s.KeepsForms (setLines lines t) :=
  h.setCph (fun hc => hc)

protected theorem senseLines {lines : Option (BitVec 8)} (h : s.KeepsForms t) : s.KeepsForms (senseLines lines t) := by
  cases lines with
  | none => exact h
  | some l => exact h.setLines

/-! ## Live input -/

protected theorem enterLive {old new : LiveState} {cause : LiveCause} (h : s.KeepsForms t) :
    s.KeepsForms (enterLive old new cause t) :=
  h.setLip.raise

protected theorem completeInput (h : s.KeepsForms t) : s.KeepsForms (completeInput t) := by
  unfold completeInput
  dsimp only
  split
  · split
    · exact h.setLip.enterLive
    · exact h.setLip
  · exact h.setLip

protected theorem endInput (h : s.KeepsForms t) : s.KeepsForms (endInput t) := by
  unfold endInput
  split
  · exact h.setLip
  · exact h

protected theorem writeCapture {n : Nat} {r : Region} (h : s.KeepsForms t) : s.KeepsForms (writeCapture n r t) := by
  obtain ⟨m, hm⟩ := t.fsc.writeCaptured_eq r (lineRun r.width n t.lip.queue)
  refine .setLip (h.setFsc ⟨Fsc.wf_writeCaptured _ _ _, ?_, ?_⟩) <;> rw [hm] <;> exact fun hx => hx

protected theorem completeIfWritten (h : s.KeepsForms t) : s.KeepsForms (completeIfWritten t) := by
  unfold completeIfWritten
  split
  · exact h.completeInput
  · exact h

protected theorem liveAtBoundary (h : s.KeepsForms t) : s.KeepsForms (liveAtBoundary t) := by
  unfold liveAtBoundary
  split
  · exact h
  · dsimp only
    split
    · exact .enterLive (.setLip (.endInput h.setLip))
    · exact h.setLip

protected theorem rebind {region : Option Nat} (h : s.KeepsForms t) : s.KeepsForms (rebind region t) :=
  h.setLip.enterLive

/-! ## The tables of the Wall Scan Engine -/

protected theorem setWalls {walls : Table Wall} (h : s.KeepsForms t)
    (hw : Table.wf t.wse.walls = true → Table.wf walls = true) :
    s.KeepsForms (t.setWse { t.wse with walls := walls }) :=
  h.setWse ⟨fun ⟨before, others⟩ => ⟨hw before, others⟩⟩

protected theorem setTiles {tiles : Table Tile} (h : s.KeepsForms t)
    (ht : Table.wf t.wse.tiles = true → Table.wf tiles = true) :
    s.KeepsForms (t.setWse { t.wse with tiles := tiles }) :=
  h.setWse ⟨fun ⟨walls, before, others⟩ => ⟨walls, ht before, others⟩⟩

protected theorem setZones {zones : Table Zone} (h : s.KeepsForms t)
    (hz : Table.wf t.wse.zones = true → Table.wf zones = true) : s.KeepsForms (setZones zones t) :=
  h.setWse ⟨fun ⟨walls, tiles, frameTiles, before⟩ => ⟨walls, tiles, frameTiles, hz before⟩⟩

/-! ## The pixel path -/

protected theorem composeRun {w n : Nat} {x : Wall} {f : FrameParams} (h : s.KeepsForms t) :
    s.KeepsForms (composeRun w n x f t) :=
  h.setWse ⟨fun ⟨walls, tiles, frameTiles, zones⟩ =>
    ⟨Table.wf_modify w _ walls, tiles, frameTiles, Table.wf_mapAll _ zones⟩⟩

protected theorem sendSubFrame {w : Nat} {x : Wall} {f : FrameParams} (h : s.KeepsForms t) :
    s.KeepsForms (sendSubFrame w x f t) :=
  .modWall (h.setWse ⟨id⟩)

protected theorem completeZone {id : Nat} (h : s.KeepsForms t) : s.KeepsForms (completeZone id t) := by
  unfold completeZone
  split
  · exact h
  · split
    · exact (h.setZones (Table.wf_insert id _ _)).trackZone
    · exact h

protected theorem completeZones (h : s.KeepsForms t) : s.KeepsForms (completeZones t) :=
  h.foldl fun _ _ hu => hu.completeZone

/-! ## Chains and tiles -/

protected theorem putChain {c : Nat} {x : Chain} (h : s.KeepsForms t) : s.KeepsForms (putChain c x t) :=
  h.setWse ⟨id⟩

protected theorem enterChain {c : Nat} {new : ChainState} {wall : Option Nat} (h : s.KeepsForms t) :
    s.KeepsForms (enterChain c new wall t) := by
  unfold enterChain
  dsimp only
  split
  · exact h.putChain
  · exact h.putChain.raise

protected theorem chainTilesChanged {before : Table Tile} {c : Nat} (h : s.KeepsForms t) :
    s.KeepsForms (chainTilesChanged before c t) := by
  unfold chainTilesChanged
  split
  · exact h
  · exact h.enterChain
  · exact h.enterChain
  · split
    · exact h
    · exact h.putChain

protected theorem tilesChanged {before : Table Tile} (h : s.KeepsForms t) : s.KeepsForms (tilesChanged before t) :=
  h.foldl fun _ _ hu => hu.chainTilesChanged

protected theorem placeTile {id : Nat} {x : Tile} (h : s.KeepsForms t) : s.KeepsForms (placeTile id x t) :=
  (h.setTiles (Table.wf_insert id x _)).tilesChanged

protected theorem takeTile {id : Nat} (h : s.KeepsForms t) : s.KeepsForms (takeTile id t) :=
  (h.setTiles (Table.wf_erase id _)).tilesChanged

protected theorem freeChains {w : Nat} {before : Table Tile} (h : s.KeepsForms t) :
    s.KeepsForms (freeChains w before t) :=
  h.setWse ⟨fun ⟨walls, tiles, frameTiles, zones⟩ => ⟨walls, tiles, Table.wf_keep _ frameTiles, zones⟩⟩

protected theorem removeWallTiles {w : Nat} (h : s.KeepsForms t) : s.KeepsForms (removeWallTiles w t) :=
  (h.setTiles (Table.wf_keep _)).freeChains.tilesChanged

/-! ## Walls -/

protected theorem removeWallFades {w : Nat} (h : s.KeepsForms t) : s.KeepsForms (removeWallFades w t) :=
  h.foldl fun _ _ hu => hu.removeFade

protected theorem createWall {q : DefineWallReq} (h : s.KeepsForms t) : s.KeepsForms (createWall q t) :=
  ((h.setWalls (Table.wf_insert q.wall _ _)).removeWallFades.foldl fun _ _ hu => hu.setLevel).judge

protected theorem releaseHeld {held : Option Held} (h : s.KeepsForms t) : s.KeepsForms (releaseHeld held t) := by
  cases held with
  | none => exact h
  | some x => exact h.foldl fun _ _ hu => hu.airDown

protected theorem clearLatches {w : Nat} (h : s.KeepsForms t) : s.KeepsForms (clearLatches w t) := h.setLip

protected theorem discardManual {w : Nat} (h : s.KeepsForms t) : s.KeepsForms (discardManual w t) :=
  h.setLvp ⟨id, fun _ fits => ⟨fits.1, le_trans (List.length_filter_le _ _) fits.2⟩⟩

protected theorem removeWall {w : Nat} {x : Wall} (h : s.KeepsForms t) : s.KeepsForms (removeWall w x t) := by
  have named : s.KeepsForms (x.layers.toList.foldl (fun u l => airDown l.source u) t) :=
    h.foldl fun _ _ hu => hu.airDown
  have cleared := (named.releaseHeld (held := x.held)).clearLatches (w := w)
  have freed := (cleared.removeWallFades (w := w)).discardManual (w := w) |>.removeWallTiles (w := w)
  exact .judge (freed.setWse ⟨by
    exact fun ⟨walls, tiles, frameTiles, zones⟩ =>
      ⟨Table.wf_erase w _ walls, tiles, frameTiles, Table.wf_keep _ zones⟩⟩)

/-! ## Walls at a boundary -/

protected theorem latchWall {w : Nat} {kind : LatchKind} {x : Wall} (h : s.KeepsForms t) :
    s.KeepsForms (latchWall w kind x t) := h.setLip

protected theorem settleMode {w : Nat} (h : s.KeepsForms t) : s.KeepsForms (settleMode w t) := by
  unfold settleMode
  split
  · exact h
  · split
    · exact (h.modWall.foldl fun _ _ hu => hu.airUp).latchWall
    · split
      · exact h.modWall.releaseHeld.latchWall
      · dsimp only
        split
        · exact h.modWall
        · exact h.modWall.latchWall

protected theorem settleFrames (h : s.KeepsForms t) : s.KeepsForms (settleFrames t) :=
  h.setWse ⟨fun ⟨walls, others⟩ =>
    ⟨Table.wf_of_ids ((ids_admitAll _ _).trans (Table.ids_map _ _)) walls, others⟩⟩

protected theorem settleShedding {w : Nat} (h : s.KeepsForms t) : s.KeepsForms (settleShedding w t) := by
  unfold settleShedding
  split
  · exact h
  · dsimp only
    split
    · exact h.modWall.raise
    · exact h.modWall

protected theorem judgeChain {c : Nat} (h : s.KeepsForms t) : s.KeepsForms (judgeChain c t) := by
  unfold judgeChain
  dsimp only
  repeat' split
  all_goals first
    | exact h
    | exact h.putChain
    | exact h.enterChain

protected theorem beginSending (h : s.KeepsForms t) : s.KeepsForms (beginSending t) :=
  h.setWse ⟨fun ⟨walls, tiles, _, zones⟩ => ⟨walls, tiles, tiles, Table.wf_mapAll _ zones⟩⟩

protected theorem wseAtBoundary (h : s.KeepsForms t) : s.KeepsForms (wseAtBoundary t) :=
  ((((h.foldl fun _ _ hu => hu.settleMode).settleFrames).foldl fun _ _ hu => hu.settleShedding).foldl
    fun _ _ hu => hu.judgeChain).beginSending

end State.KeepsForms

/-! ## Commands -/

section

variable {s : State}

theorem tally_keepsForms {camera state : Nat} : (tally camera state s).KeepsForms s :=
  .checked (.setCph (.refl s) fun h => Cph.inRange_put camera (Cph.inRange_camera camera h) h)

theorem setCamera_keepsForms {q : SetCameraReq} : (setCamera q s).KeepsForms s := by
  unfold setCamera
  split
  · exact .refuse
  · exact .refuse
  · next c _ profile =>
    exact .setCph (.refl s) fun h =>
      Cph.inRange_put q.camera (Camera.newProfile_phase_lt _ c q (Cph.inRange_camera q.camera h) profile) h

theorem setIdlePhase_keepsForms {phase : Nat} : (setIdlePhase phase s).KeepsForms s := by
  unfold setIdlePhase checked
  split
  · exact .refuse
  · next passed =>
    have small : decide (1023 < phase) = false := firstFailing_none _ passed (_, .range) (.tail _ (.head _))
    refine .setCph (.refl s) fun ⟨current, target, _, others⟩ => ⟨current, target, ?_, others⟩
    simpa [Nat.lt_succ_iff] using small

theorem setSlew_keepsForms {limit : Nat} : (setSlew limit s).KeepsForms s := by
  refine .checked (.setCph (.refl s) fun ⟨current, target, idle, _, _, cameras⟩ =>
    ⟨current, target, idle, ?_, ?_, cameras⟩)
  all_goals simp only [clamp]; omega

theorem execInputFrameStart_keepsForms : s.KeepsFormsTo (execInputFrameStart s) := by
  unfold execInputFrameStart
  dsimp only
  split
  · exact .next (.refl s)
  · split
    · exact .next (.enterLive (.setLip (.setLip (.endInput (.refl s)))))
    · exact .next (.setLip (.endInput (.refl s)))

theorem execLineStrobe_keepsForms : s.KeepsFormsTo (execLineStrobe s) := by
  unfold execLineStrobe
  split
  · exact .next (.setLip (.refl s))
  · split
    · exact .next (.setLip (.refl s))
    · exact .next (.setLip (.refl s))
  · exact .next (.refl s)

theorem execInputPixel_keepsForms {r g b : BitVec 10} : s.KeepsFormsTo (execInputPixel r g b s) := by
  unfold execInputPixel
  split
  · exact .next (.setLip (.refl s))
  · exact .next (.refl s)

theorem liveCapture_keepsForms {n : Nat} : s.KeepsFormsTo (liveCapture n s) := by
  unfold liveCapture
  split
  · exact .next (.refl s)
  · split
    · exact .next (.completeIfWritten (.writeCapture (.refl s)))
    · exact .fault

theorem execInputFrameComplete_keepsForms : s.KeepsFormsTo (execInputFrameComplete s) := by
  unfold execInputFrameComplete
  dsimp only
  split
  · exact liveCapture_keepsForms
  · exact .next (.refl s)

theorem setLiveInput_keepsForms {region : Option Nat} : (setLiveInput region s).KeepsForms s := by
  unfold setLiveInput
  dsimp only
  split
  · exact .refuse
  · exact .refuse
  · exact .ite (.refl s) (.ite .refuse (.rebind (.refl s)))

theorem scanFetch_keepsForms {w n : Nat} : s.KeepsFormsTo (scanFetch w n s) := by
  unfold scanFetch
  split
  · exact .next (.refl s)
  · split
    · exact .next (.refl s)
    · split
      · exact .next (.composeRun (.refl s))
      · exact .fault

theorem execDramAccessGrant_keepsForms {asks : Asks} : s.KeepsFormsTo (execDramAccessGrant asks s) := by
  unfold execDramAccessGrant
  split
  · exact scanFetch_keepsForms
  · exact liveCapture_keepsForms
  · exact .next (.refl s)

theorem execLatchInstant_keepsForms {w k : Nat} : s.KeepsFormsTo (execLatchInstant w k s) := by
  have composed (x : Wall) (f : FrameParams) (tick : Nat) :
      s.KeepsForms (composeRun w x.area x f (reach w k (moveTick tick s))) :=
    (State.KeepsForms.modWall (.setRtu (.refl s))).composeRun
  unfold execLatchInstant
  split
  · exact .next (.refl s)
  · split
    · exact .next (.refl s)
    · dsimp only
      split
      · split
        · split
          · exact .next (composed _ _ _)
          · exact .next (composed _ _ _).sendSubFrame
        · exact .fault
      · exact .next (.refl s)

theorem execChainEcho_keepsForms {chain word : Nat} : s.KeepsFormsTo (execChainEcho chain word s) := by
  unfold execChainEcho
  split
  · exact .next (.setWse (.refl s) ⟨id⟩)
  · exact .next (.refl s)

theorem defineWall_keepsForms {q : DefineWallReq} : (defineWall q s).KeepsForms s :=
  .checked (.createWall (.refl s))

theorem deleteWall_keepsForms {w : Nat} : (deleteWall w s).KeepsForms s := by
  unfold deleteWall
  split
  · exact .refuse
  · exact .refuse
  · exact .removeWall (.refl s)

theorem setLayer_keepsForms {q : SetLayerReq} : (setLayer q s).KeepsForms s :=
  .checked (.changeLayer (.refl s))

theorem setWallMode_keepsForms {q : SetWallModeReq} : (setWallMode q s).KeepsForms s := by
  unfold setWallMode
  split
  · exact .refuse
  · exact .refuse
  · exact .refuse
  · exact .modWall (.refl s)

theorem setTile_keepsForms {q : SetTileReq} : (setTile q s).KeepsForms s := by
  unfold setTile
  split
  · exact .refuse
  · exact .refuse
  · exact .refuse
  · exact .placeTile (.refl s)

theorem removeTile_keepsForms {id : Nat} : (removeTile id s).KeepsForms s := by
  unfold removeTile
  split
  · exact .refuse
  · exact .refuse
  · exact .takeTile (.refl s)

theorem setCorrection_keepsForms {q : SetCorrectionReq} : (setCorrection q s).KeepsForms s := by
  unfold setCorrection
  split
  · exact .refuse
  · exact .refuse
  · exact .setTiles (.refl s) (Table.wf_insert _ _ _)

theorem defineZone_keepsForms {q : DefineZoneReq} : (defineZone q s).KeepsForms s := by
  unfold defineZone
  split
  · exact .refuse
  · exact .setZones (.refl s) (Table.wf_erase _ _)
  · split
    · exact .refuse
    · exact .ite (.setZones (.refl s) (Table.wf_insert _ _ _)) .refuse

end

end Sys2Proof.Machine
end

section
/-! Sizes and forms: the generator, the frame boundary, the link, and the step (O56). -/

namespace Sys2Proof.Machine

namespace State.KeepsForms

variable {s t : State}

/-! ## The generator -/

protected theorem enterGen {new : GenState} {cause : RefCause} (h : s.KeepsForms t) :
    s.KeepsForms (enterGen new cause t) :=
  h.setRtu.raise

protected theorem enterAcquiring {origin : AcqOrigin} {started : Bool} {cause : RefCause} (h : s.KeepsForms t) :
    s.KeepsForms (enterAcquiring origin started cause t) :=
  h.setRtu.enterGen

protected theorem enterHoldover {cause : RefCause} (h : s.KeepsForms t) : s.KeepsForms (enterHoldover cause t) :=
  h.setRtu.enterGen

protected theorem enterFreerun {cause : RefCause} (h : s.KeepsForms t) : s.KeepsForms (enterFreerun cause t) :=
  h.setRtu.enterGen

protected theorem endSlip {slip : Int} {length : Nat} (h : s.KeepsForms t) : s.KeepsForms (endSlip slip length t) :=
  h.setRtu.raise

protected theorem abandonAcquisition (h : s.KeepsForms t) : s.KeepsForms (abandonAcquisition t) := by
  unfold abandonAcquisition
  split
  · exact h.enterFreerun
  · exact h.setRtu.enterGen

protected theorem genAtBoundary (h : s.KeepsForms t) : s.KeepsForms (genAtBoundary t) := by
  unfold genAtBoundary
  split
  · exact h.setRtu
  · split
    · exact h.enterFreerun
    · exact h.setRtu
  · dsimp only
    split
    · exact h.setRtu.abandonAcquisition
    · exact h.setRtu
  · exact h

protected theorem warnStandard {p : Nat} (h : s.KeepsForms t) : s.KeepsForms (warnStandard p t) := by
  unfold warnStandard
  split
  · exact h
  · exact h.setRtu.raise

protected theorem reenter (h : s.KeepsForms t) : s.KeepsForms (reenter t) := by
  unfold reenter
  split
  · exact h.setRtu.enterGen
  · exact h.setRtu.enterAcquiring

/-! ## The boundary -/

protected theorem douAtBoundary {cut : Bool} (h : s.KeepsForms t) : s.KeepsForms (douAtBoundary cut t) := h.setDou

protected theorem blocksAtBoundary {lines : BitVec 8} {cut : Bool} (h : s.KeepsForms t) :
    s.KeepsForms (blocksAtBoundary lines cut t) :=
  h.cphAtBoundary.cueAtBoundary.liveAtBoundary.wseAtBoundary.fbcAtBoundary.douAtBoundary

protected theorem takeBoundary {time : Nat} {lines : BitVec 8} {cut : Bool} {gen : State → State} (h : s.KeepsForms t)
    (hgen : ∀ u, s.KeepsForms u → s.KeepsForms (gen u)) :
    s.KeepsForms (takeBoundary time lines cut gen t) :=
  (hgen _ h.completeZones.setRtu).blocksAtBoundary

protected theorem endLengthened {slip : Option Nat} (h : s.KeepsForms t) : s.KeepsForms (endLengthened slip t) := by
  cases slip with
  | none => exact h
  | some k => exact h.endSlip

protected theorem tickBoundary {lines : BitVec 8} (h : s.KeepsForms t) : s.KeepsForms (tickBoundary lines t) :=
  h.takeBoundary fun _ hu => hu.genAtBoundary.endLengthened

protected theorem boundaryWhen {due : Bool} {lines : BitVec 8} (h : s.KeepsForms t) :
    s.KeepsForms (boundaryWhen due lines t) := by
  unfold boundaryWhen
  split
  · exact h.tickBoundary
  · exact h

protected theorem lateBoundary {lines : BitVec 8} (h : s.KeepsForms t) : s.KeepsForms (lateBoundary lines t) :=
  h.takeBoundary fun _ hu => hu.enterHoldover.endLengthened

/-! ## Reference frame starts -/

protected theorem enterLocked {time p : Nat} (h : s.KeepsForms t) : s.KeepsForms (enterLocked time p t) :=
  h.setRtu.enterGen

protected theorem lock {time p : Nat} {lines : BitVec 8} (h : s.KeepsForms t) :
    s.KeepsForms (lock time p lines t) := by
  unfold lock
  dsimp only
  split
  · exact h.setRtu.enterLocked.endSlip
  · split
    · exact h.takeBoundary fun _ hu => hu.enterLocked.endSlip
    · exact h.setRtu.enterLocked

protected theorem acquire {time p : Nat} {lines : BitVec 8} (h : s.KeepsForms t) :
    s.KeepsForms (acquire time p lines t) := by
  unfold acquire
  split
  · dsimp only
    split
    · exact h.setRtu.warnStandard.lock
    · exact h.setRtu.warnStandard
  · exact h.setRtu

protected theorem onTimeStart {time : Nat} (h : s.KeepsForms t) : s.KeepsForms (onTimeStart time t) := by
  unfold onTimeStart
  dsimp only
  split
  · exact h.setRtu
  · exact h.setRtu.enterHoldover

protected theorem referenceStart {time : Nat} {lines : BitVec 8} (h : s.KeepsForms t) :
    s.KeepsForms (referenceStart time lines t) := by
  unfold referenceStart
  dsimp only
  split
  · split
    · exact h.setRtu.enterAcquiring
    · exact h.setRtu
  · split
    · exact h.setRtu.enterAcquiring
    · exact h.setRtu
  · exact h.setRtu.acquire
  · split
    · exact h.setRtu
    · exact h.setRtu.takeBoundary fun _ hu => hu.onTimeStart.endLengthened

/-! ## The Control Link -/

protected theorem linkError (h : s.KeepsForms t) : s.KeepsForms (linkError t) :=
  h.setLkd ⟨fun ⟨requests, ready, dropped, _⟩ => ⟨requests, ready, dropped, satAdd_le _ _ _⟩⟩

protected theorem huntChar {c : RxChar} (h : s.KeepsForms t) : s.KeepsForms (huntChar c t) := by
  unfold huntChar
  split
  · exact h.setLkd ⟨id⟩
  · exact h.setLkd ⟨id⟩

protected theorem endFrame {bytes : List Byte} (h : s.KeepsForms t) : s.KeepsForms (endFrame bytes t) := by
  unfold endFrame
  dsimp only
  split
  · exact h.linkError
  · exact .joinQueue (h.setLkd ⟨id⟩)

protected theorem frameByte {bytes : List Byte} (h : s.KeepsForms t) : s.KeepsForms (frameByte bytes t) := by
  unfold frameByte
  split
  · exact h.linkError
  · split
    · exact h.endFrame
    · exact h.setLkd ⟨id⟩

protected theorem receiveChar {c : RxChar} (h : s.KeepsForms t) : s.KeepsForms (receiveChar t c) := by
  unfold receiveChar
  split
  · exact h.huntChar
  · split
    · exact h.linkError.huntChar
    · split
      · exact h.linkError
      · exact h.frameByte

protected theorem linkReset (h : s.KeepsForms t) : s.KeepsForms (linkReset t) := by
  refine h.setLkd ⟨fun ⟨_, ready, dropped, errors⟩ => ⟨Nat.zero_le 4, ?_, dropped, errors⟩⟩
  have fewer : noticeCount (t.lkd.ready.filter (fun f => !f.isNotice)) ≤ noticeCount t.lkd.ready :=
    List.Sublist.countP_le List.filter_sublist
  exact le_trans fewer ready

/-! ## Resets -/

/-- A full reset leaves the reset values, which are in range, and of DRAM what an abandoned access had written. -/
protected theorem fullReset (s : State) {r : ResetIn} : s.KeepsForms (fullReset r s) where
  memory := wf_abandonAccess r s
  tables _ := reset_tablesWf
  sizes _ _ := reset_bounded
  phases _ := reset_phasesInRange

protected theorem cutSending {r : ResetIn} {u : State} (h : s.KeepsForms t) : s.KeepsForms (cutSending r u t) := by
  unfold cutSending
  split
  · split
    · exact h.setLkd ⟨id⟩
    · exact h
  · exact h

end State.KeepsForms

/-! ## Commands -/

section

variable {s : State}

theorem setReference_keepsForms {q : SetReferenceReq} : (setReference q s).KeepsForms s := by
  unfold setReference
  split
  · exact .refuse
  · exact .refuse
  · show s.KeepsForms _
    split
    · exact (State.KeepsForms.setRtu (.refl s)).reenter
    · exact .setRtu (.refl s)

theorem setNoticeMask_keepsForms {mask : Nat} : (setNoticeMask mask s).KeepsForms s :=
  .checked (.setLkd (.refl s) ⟨id⟩)

theorem reset_keepsForms {scope : Nat} : (reset scope s).KeepsForms s := by
  unfold Machine.reset
  split
  · exact .refuse
  · split
    · exact .refuse
    · exact .setLkd (.refl s) ⟨id⟩

theorem clearFlags_keepsForms {q : ClearFlagsReq} : (clearFlags q s).KeepsForms s := by
  have walls := (State.KeepsForms.refl s).setWalls (walls := s.wse.walls.map (fun e => (e.1, e.2.clearFlags q e.1)))
    (Table.wf_of_ids (Table.ids_map _ _))
  have flags := (walls.setCue (x := { s.cue with waitOverflow := s.cue.waitOverflow && !q.select.testBit 0 })
    ⟨id, id⟩).setLvp
    (x := { s.lvp with
      fadeOverflow := s.lvp.fadeOverflow && !q.select.testBit 1, channels := clearSat q s.lvp.channels })
    ⟨id, fun _ => id⟩
  refine .checked (flags.setLkd ⟨fun ⟨requests, ready, dropped, errors⟩ => ⟨requests, ready, dropped, ?_⟩⟩)
  dsimp only
  split
  · exact Nat.zero_le _
  · exact errors

theorem setDimmer_keepsForms {q : SetDimmerReq} : (setDimmer q s).KeepsForms s := by
  unfold setDimmer
  dsimp only
  split
  · exact .refuse
  · exact .refuse
  · exact .setDou (.refl s)

theorem execDimmerPeriodStart_keepsForms {o j : Nat} : s.KeepsFormsTo (execDimmerPeriodStart o j s) := by
  unfold execDimmerPeriodStart
  dsimp only
  split
  · exact .next (.refl s)
  · split
    · exact .next (.setDou (.setRtu (.refl s)))
    · exact .next (.refl s)

theorem execDimmerPulseEnd_keepsForms {o : Nat} : s.KeepsFormsTo (execDimmerPulseEnd o s) := by
  unfold execDimmerPulseEnd
  dsimp only
  split
  · exact .next (.setDou (.setRtu (.refl s)))
  · exact .next (.refl s)

theorem execControlLinkFrame_keepsForms {time : Nat} {lines : BitVec 8} {chars : List LineChar} :
    s.KeepsFormsTo (execControlLinkFrame time lines chars s) :=
  .next (.foldl (.setLines (.setRtu (.refl s))) fun _ _ hu => hu.receiveChar)

theorem execUnknownKind_keepsForms {tag kind : Byte} : s.KeepsFormsTo (execUnknownKind tag kind s) := by
  unfold execUnknownKind
  split
  · exact .next (.refl s)
  · exact served_keepsForms fun u => .refuse

theorem execTransmitFrame_keepsForms : s.KeepsFormsTo (execTransmitFrame s) := by
  unfold execTransmitFrame
  split
  · exact .next (.refl s)
  · exact .next (.refl s)
  · next f rest ready _ =>
    have fewer : noticeCount rest ≤ noticeCount s.lkd.ready := by
      rw [ready]
      exact List.Sublist.countP_le (List.sublist_cons_self f rest)
    exact .next (.setLkd (.refl s) ⟨fun ⟨requests, notices, others⟩ => ⟨requests, le_trans fewer notices, others⟩⟩)

theorem execFullReset_keepsForms {r : ResetIn} : s.KeepsFormsTo (execFullReset r s) := by
  unfold execFullReset
  split
  · exact .next (.fullReset s)
  · exact .next (.refl s)

theorem execLinkReset_keepsForms : s.KeepsFormsTo (execLinkReset s) := by
  unfold execLinkReset
  split
  · exact .next (.linkReset (.refl s))
  · exact .next (.refl s)

theorem execFrameBoundary_keepsForms {lines : BitVec 8} : s.KeepsFormsTo (execFrameBoundary lines s) := by
  unfold execFrameBoundary
  split
  · exact .next (.tickBoundary (.refl s))
  · exact .next (.refl s)

theorem execLateLimit_keepsForms {lines : BitVec 8} : s.KeepsFormsTo (execLateLimit lines s) := by
  unfold execLateLimit
  split
  · exact .next (.lateBoundary (.refl s))
  · exact .next (.refl s)

theorem execFramePulse_keepsForms {p : FramePulse} : s.KeepsFormsTo (execFramePulse p s) := by
  have sensed {u : State} (h : s.KeepsForms u) :
      s.KeepsForms (setLines p.tally (u.setRtu (u.rtu.advance p.time))) := h.setRtu.setLines
  have before : s.KeepsForms
      (if s.rtu.gen = .locked ∧ s.rtu.lateTime < p.time then lateBoundary p.tally s else s) := by
    split
    · exact (State.KeepsForms.refl s).lateBoundary
    · exact .refl s
  unfold execFramePulse
  dsimp only
  generalize (if s.rtu.gen = .locked ∧ s.rtu.lateTime < p.time then lateBoundary p.tally s else s) = u at before ⊢
  split
  · exact .next (sensed before).referenceStart
  · exact .next (sensed before)

/-- Every command keeps the sizes and forms. -/
theorem exec_keepsForms (i : Instr) (s : State) : s.KeepsFormsTo (exec i s) := by
  have own := State.KeepsForms.refl s
  cases i with
  | powerOn => exact .next (.fullReset s)
  | resetPin => exact .next (.cutSending (.fullReset s))
  | rankSized => exact execRankSized_keepsForms
  | controlLinkFrame => exact execControlLinkFrame_keepsForms
  | unknownKind => exact execUnknownKind_keepsForms
  | transmitFrame => exact execTransmitFrame_keepsForms
  | identify | readStatus | readTiming | readMemory | readPosting | readLive | readCueState =>
    exact served_keepsForms fun u => State.KeepsForms.refl u
  | clearFlags => exact served_keepsForms fun u => clearFlags_keepsForms
  | setNoticeMask => exact served_keepsForms fun u => setNoticeMask_keepsForms
  | reset => exact served_keepsForms fun u => reset_keepsForms
  | linkReset => exact execLinkReset_keepsForms
  | fullReset => exact execFullReset_keepsForms
  | setReference => exact served_keepsForms fun u => setReference_keepsForms
  | framePulse => exact execFramePulse_keepsForms
  | linePulse => exact .next own.setRtu
  | lateLimit => exact execLateLimit_keepsForms
  | frameBoundary => exact execFrameBoundary_keepsForms
  | acquisitionAbandoned | holdoverExpired | waitEntryDue | followExpiry | fadeEnd | feedLost | keepAliveExpiry
  | silenceLimit => exact .next own.boundaryWhen
  | latchInstant => exact execLatchInstant_keepsForms
  | chainEcho => exact execChainEcho_keepsForms
  | zoneComplete => exact .next own.completeZone
  | dramAccessGrant => exact execDramAccessGrant_keepsForms
  | burstGrant => exact execBurstGrant_keepsForms
  | waitingRequestAccept => exact execWaitingRequestAccept_keepsForms
  | regionRemoval => exact execRegionRemoval_keepsForms
  | readProceeds => exact execReadProceeds_keepsForms
  | contentReadGrant => exact execContentReadGrant_keepsForms
  | inputFrameStart => exact execInputFrameStart_keepsForms
  | lineStrobe => exact execLineStrobe_keepsForms
  | inputFrameComplete => exact execInputFrameComplete_keepsForms
  | setCamera => exact served_keepsForms fun u => setCamera_keepsForms
  | setIdlePhase => exact served_keepsForms fun u => setIdlePhase_keepsForms
  | setSlew => exact served_keepsForms fun u => setSlew_keepsForms
  | tally => exact served_keepsForms fun u => tally_keepsForms
  | readPhase =>
    exact .next (.trans own.senseLines (serve_keepsForms (handle := readPhase) fun u => State.KeepsForms.refl u))
  | defineRegion => exact served_keepsForms fun u => defineRegion_keepsForms
  | deleteRegion => exact served_keepsForms fun u => deleteRegion_keepsForms
  | readRegion t id => exact served_keepsForms fun u => (readRegion_reads u id).keepsForms
  | setShowLock => exact served_keepsForms fun u => setShowLock_keepsForms
  | writeContent | fillRegion => exact served_keepsForms fun u => placeEntry_keepsForms
  | readContent => exact served_keepsForms fun u => readContent_keepsForms
  | setLiveInput => exact served_keepsForms fun u => setLiveInput_keepsForms
  | defineWall => exact served_keepsForms fun u => defineWall_keepsForms
  | deleteWall => exact served_keepsForms fun u => deleteWall_keepsForms
  | setLayer => exact served_keepsForms fun u => setLayer_keepsForms
  | setWallMode => exact served_keepsForms fun u => setWallMode_keepsForms
  | setTile => exact served_keepsForms fun u => setTile_keepsForms
  | removeTile => exact served_keepsForms fun u => removeTile_keepsForms
  | setCorrection => exact served_keepsForms fun u => setCorrection_keepsForms
  | defineZone => exact served_keepsForms fun u => defineZone_keepsForms
  | readWall t w => exact served_keepsForms fun u => (readWall_reads u w).keepsForms
  | readZone t z => exact served_keepsForms fun u => (readZone_reads u z).keepsForms
  | storeCue => exact served_keepsForms fun u => storeCue_keepsForms
  | deleteCue => exact served_keepsForms fun u => deleteCue_keepsForms
  | standby => exact served_keepsForms fun u => standby_keepsForms
  | go => exact served_keepsForms fun u => go_keepsForms
  | goCue => exact served_keepsForms fun u => goCue_keepsForms
  | cancelGo => exact served_keepsForms fun u => cancelGo_keepsForms
  | hold => exact served_keepsForms fun u => holdCue_keepsForms
  | release => exact served_keepsForms fun u => releaseCue_keepsForms
  | stepFrames => exact served_keepsForms fun u => stepCue_keepsForms
  | readCue t n search => exact served_keepsForms fun u => (readCue_answers u n search).keepsForms
  | setCurve => exact served_keepsForms fun u => setCurve_keepsForms
  | fade => exact served_keepsForms fun u => fade_keepsForms
  | setChannel => exact served_keepsForms fun u => setChannel_keepsForms
  | readLevels t q => exact served_keepsForms fun u => (readLevels_reads u q).keepsForms
  | setBus => exact served_keepsForms fun u => setBus_keepsForms
  | setFilter => exact served_keepsForms fun u => setFilter_keepsForms
  | defineFixture => exact served_keepsForms fun u => defineFixture_keepsForms
  | deleteFixture => exact served_keepsForms fun u => deleteFixture_keepsForms
  | readBus t port => exact served_keepsForms fun u => (readBus_reads u port).keepsForms
  | readFixture t id search => exact served_keepsForms fun u => (readFixture_answers u id search).keepsForms
  | setDimmer => exact served_keepsForms fun u => setDimmer_keepsForms
  | readDimmer t output => exact served_keepsForms fun u => (readDimmer_reads u output).keepsForms
  | portJoined => exact execPortJoined_keepsForms
  | portRecovered => exact execPortRecovered_keepsForms
  | sendStart => exact execSendStart_keepsForms
  | lostArbitration => exact execLostArbitration_keepsForms
  | sendSuccess => exact execSendSuccess_keepsForms
  | validReception => exact execValidReception_keepsForms
  | busError => exact execBusError_keepsForms
  | dimmerPeriodStart => exact execDimmerPeriodStart_keepsForms
  | dimmerPulseEnd => exact execDimmerPulseEnd_keepsForms
  | inputPixel => exact execInputPixel_keepsForms
  | quietPeriod => exact execQuietPeriod_keepsForms

theorem step_keepsForms (s : State) : s.KeepsFormsTo (step s) := by
  unfold step
  split
  · next c rest _ =>
    intro t ht
    have waiting : s.KeepsForms { s with pending := rest } := ⟨id, id, fun _ => id, id⟩
    exact waiting.trans (exec_keepsForms c _ t ht)
  · unfold idle
    split
    · exact .next (.refl s)
    · exact exec_keepsForms _ s
    · exact .next (.answerHead (.refl s))

end

/-- Settles O56: each function of the model keeps the sizes and forms of what it writes, and with them every command. -/
theorem stepKeepsSizesAndForms : Obligations.StepKeepsSizesAndForms := by
  intro s t h
  obtain ⟨memory, tables, sizes, phases⟩ := step_keepsForms s t h
  exact ⟨memory, tables, sizes, phases⟩

end Sys2Proof.Machine
end

section
/-! PROOF. The requests of the Camera Phase Unit (O22). -/

namespace Sys2Proof.Machine

/-! ## Checks one by one -/

theorem checked_nil (s : State) (ok : Answer) : checked [] s ok = ok := rfl

theorem checked_cons (failed : Bool) (st : Status) (rest : List (Bool × Status)) (s : State) (ok : Answer) :
    checked ((failed, st) :: rest) s ok = if failed = true then refuse st s else checked rest s ok := by
  cases failed with
  | true => rfl
  | false => rfl

/-- A request that its block refuses under a condition, and otherwise answers with `a`. -/
theorem serve_refusedIf {s : State} {cmd : Instr} {tag kind : Byte} {handle : State → Answer}
    {rest : List QueuedRequest} {p : Prop} [Decidable p] {st : Status} {a : Answer} {t : State}
    (h : s.takes cmd rest)
    (answer : handle (s.atHead cmd rest) = if p then refuse st (s.atHead cmd rest) else a)
    (passed : handle (s.atHead cmd rest) = a → serve cmd tag kind handle s = t) :
    serve cmd tag kind handle s = if p then s.answered tag kind st [] rest else t := by
  by_cases holds : p
  · rw [if_pos holds] at answer ⊢
    exact serve_refused _ _ _ _ _ _ _ h answer
  · rw [if_neg holds] at answer ⊢
    exact passed answer

/-! ## What the handlers answer, check by check -/

theorem setIdlePhase_eq (phase : Nat) (s : State) :
    setIdlePhase phase s =
      if s.fsc.showLock = true then refuse .locked s
      else if 1023 < phase then refuse .range s
      else .reply .ok [.u2 phase] (s.setCph { s.cph with idlePhase := phase }) := by
  simp only [setIdlePhase, checked_cons, checked_nil, decide_eq_true_eq]

theorem setSlew_eq (limit : Nat) (s : State) :
    setSlew limit s =
      if s.fsc.showLock = true then refuse .locked s
      else .reply .ok [.u2 (clamp 1 1024 limit)] (s.setCph { s.cph with slewLimit := clamp 1 1024 limit }) := by
  simp only [setSlew, checked_cons, checked_nil]

theorem isNone_boolOfCode (n : Nat) : (boolOfCode n).isNone = true ↔ 1 < n := by
  match n with
  | 0 => decide
  | 1 => decide
  | n + 2 => exact ⟨fun _ => by omega, fun _ => rfl⟩

theorem tally_eq (camera state : Nat) (s : State) :
    tally camera state s =
      if 7 < camera ∨ 1 < state then refuse .range s
      else if (s.cph.camera camera).source = .line then refuse .wrongState s
      else .reply .ok [] (s.setCph { s.cph with
        cameras := put s.cph.cameras camera { s.cph.camera camera with linkTally := decide (state = 1) } }) := by
  simp only [tally, checked_cons, checked_nil, decide_eq_true_eq, isNone_boolOfCode]
  by_cases number : 7 < camera
  · simp only [number, true_or, if_true]
  · simp only [number, false_or, if_false]

/-- R29: 0 is taken as 1, and a limit above 1024 as 1024. -/
theorem clamp_slew (limit : Nat) :
    clamp 1 1024 limit = if limit = 0 then 1 else if 1024 < limit then 1024 else limit := by
  unfold clamp
  split
  · omega
  · split <;> omega

/-- R27: the profile that SET CAMERA leaves, where every value given is in range. -/
theorem Camera.newProfile_eq {c : Camera} {q : SetCameraReq} {phase : Nat} {preferred : Bool} {source : TallySource}
    {polarity : LinePolarity} (hphase : q.phase.getD c.phase = phase) (small : q.phase.isSome = true → phase ≤ 1023)
    (hpreferred : keepOr c.preferred boolOfCode q.preferred = some preferred)
    (hsource : keepOr c.source TallySource.ofCode q.source = some source)
    (hpolarity : keepOr c.polarity LinePolarity.ofCode q.polarity = some polarity) :
    c.newProfile q =
      some ⟨phase, preferred, source, polarity, decide (source = c.source) && c.linkTally, c.raw⟩ := by
  have taken : keepOr c.phase (fun n => if n ≤ 1023 then some n else none) q.phase = some phase := by
    cases given : q.phase with
    | none => rw [given] at hphase; exact congrArg some hphase
    | some p =>
      rw [given] at hphase small
      obtain rfl : p = phase := hphase
      exact if_pos (small rfl)
  unfold Camera.newProfile
  rw [taken, hpreferred, hsource, hpolarity]
  by_cases same : source = c.source
  · simp only [same, if_true, decide_true, Bool.true_and]
  · simp only [same, if_false, decide_false, Bool.false_and]

theorem setCamera_ok {q : SetCameraReq} {s : State} {c : Camera} (unlocked : s.fsc.showLock = false)
    (number : q.camera ≤ 7) (profile : (s.cph.camera q.camera).newProfile q = some c) :
    setCamera q s = .reply .ok c.fields (s.setCph { s.cph with cameras := put s.cph.cameras q.camera c }) := by
  have inTable : decide (7 < q.camera) = false := decide_eq_false (Nat.not_lt.mpr number)
  simp only [setCamera, profile, unlocked, inTable, firstFailing, Bool.false_eq_true, if_false]

/-! ## The four requests -/

section Requests

variable {s : State} {tag : Byte} {rest : List QueuedRequest}

theorem exec_setIdlePhase_taken {phase : Nat} (h : s.takes (.setIdlePhase tag phase) rest) :
    exec (.setIdlePhase tag phase) s = .next
      (if s.fsc.showLock = true then s.answered tag 0x15 .locked [] rest
       else if 1023 < phase then s.answered tag 0x15 .range [] rest
       else (s.setCph { s.cph with idlePhase := phase }).answered tag 0x15 .ok [.u2 phase] rest) :=
  congrArg _ (serve_refusedIf h (setIdlePhase_eq phase _) fun answer =>
    serve_refusedIf h answer fun answer => serve_ok _ _ _ _ _ _ _ _ h answer rfl)

theorem exec_setSlew_taken {limit : Nat} (h : s.takes (.setSlew tag limit) rest) :
    exec (.setSlew tag limit) s = .next
      (if s.fsc.showLock = true then s.answered tag 0x16 .locked [] rest
       else
         let l := if limit = 0 then 1 else if 1024 < limit then 1024 else limit
         (s.setCph { s.cph with slewLimit := l }).answered tag 0x16 .ok [.u2 l] rest) := by
  rw [← clamp_slew]
  exact congrArg _ (serve_refusedIf h (setSlew_eq limit _) fun answer => serve_ok _ _ _ _ _ _ _ _ h answer rfl)

theorem exec_tally_taken {camera state : Nat} (h : s.takes (.tally tag camera state) rest) :
    exec (.tally tag camera state) s = .next
      (if 7 < camera ∨ 1 < state then s.answered tag 0x17 .range [] rest
       else if (s.cph.camera camera).source = .line then s.answered tag 0x17 .wrongState [] rest
       else
         let c : Camera := { s.cph.camera camera with linkTally := decide (state = 1) }
         (s.setCph { s.cph with cameras := put s.cph.cameras camera c }).answered tag 0x17 .ok [] rest) :=
  congrArg _ (serve_refusedIf h (tally_eq camera state _) fun answer =>
    serve_refusedIf h answer fun answer => serve_ok _ _ _ _ _ _ _ _ h answer rfl)

theorem exec_setCamera_taken {q : SetCameraReq} {c : Camera} (h : s.takes (.setCamera tag q) rest)
    (unlocked : s.fsc.showLock = false) (number : q.camera ≤ 7)
    (profile : (s.cph.camera q.camera).newProfile q = some c) :
    exec (.setCamera tag q) s = .next
      ((s.setCph { s.cph with cameras := put s.cph.cameras q.camera c }).answered tag 0x14 .ok c.fields rest) :=
  congrArg _ (serve_ok _ _ _ _ _ _ _ _ h (setCamera_ok (s := s.atHead _ rest) unlocked number profile) rfl)

end Requests

/-- Settles O22: each handler, check by check, with the Link Dispatcher's reply around it. -/
theorem cameraRequests : Obligations.CameraRequests := by
  unfold Obligations.CameraRequests
  refine ⟨fun tag rest s => ⟨fun phase h => exec_setIdlePhase_taken h, fun limit h => exec_setSlew_taken h, ?_⟩,
    fun tag camera state rest s h => exec_tally_taken h⟩
  intro q phase preferred source polarity h unlocked number hphase small hpreferred hsource hpolarity
  exact exec_setCamera_taken h unlocked number (Camera.newProfile_eq hphase small hpreferred hsource hpolarity)

end Sys2Proof.Machine
end

section
/-! PROOF. Tally, the on-air winner and the scan phase at a boundary (O21). -/

namespace Sys2Proof.Machine

/-! ## The on-air winner and the target, R22 -/

/-- A camera that is on and preferred. -/
def Cph.favoured (c : Cph) (i : Nat) : Prop := (c.camera i).raw = true ∧ (c.camera i).preferred = true

theorem Cph.settle_eq_some (c : Cph) (w : Nat) :
    c.settle = some w ↔
      w < 8 ∧ (c.camera w).raw = true ∧
        ((c.camera w).preferred = true ∧ (∀ i, i < w → ¬c.favoured i) ∨
          (∀ i, i < 8 → ¬c.favoured i) ∧ ∀ i, i < w → (c.camera i).raw = false) := by
  unfold Cph.settle Cph.favoured
  constructor
  · intro settled
    split at settled
    · next i found =>
      obtain rfl : i = w := Option.some.inj settled
      obtain ⟨on, number, lower⟩ := List.find?_range_eq_some.mp found
      simp only [Bool.and_eq_true, List.mem_range, Bool.not_eq_true', ← Bool.not_eq_true] at on number lower
      exact ⟨number, on.1, .inl ⟨on.2, lower⟩⟩
    · next absent =>
      obtain ⟨on, number, lower⟩ := List.find?_range_eq_some.mp settled
      simp only [List.find?_range_eq_none, Bool.and_eq_true, Bool.not_eq_true', ← Bool.not_eq_true] at absent
      simp only [List.mem_range, Bool.not_eq_true'] at number lower
      exact ⟨number, on, .inr ⟨absent, lower⟩⟩
  · rintro ⟨number, on, ⟨preferred, lower⟩ | ⟨absent, lower⟩⟩
    · have found : (List.range 8).find? (fun i => (c.camera i).raw && (c.camera i).preferred) = some w := by
        simp only [List.find?_range_eq_some, Bool.and_eq_true, List.mem_range, Bool.not_eq_true',
          ← Bool.not_eq_true]
        exact ⟨⟨on, preferred⟩, number, lower⟩
      rw [found]
    · have noneFavoured : (List.range 8).find? (fun i => (c.camera i).raw && (c.camera i).preferred) = none := by
        simp only [List.find?_range_eq_none, Bool.and_eq_true, Bool.not_eq_true', ← Bool.not_eq_true]
        exact absent
      rw [noneFavoured]
      simp only [List.find?_range_eq_some, List.mem_range, Bool.not_eq_true']
      exact ⟨on, number, lower⟩

theorem Cph.step_target (c : Cph) :
    c.step.target = (match c.settle with
      | some w => (c.camera w).phase
      | none => c.idlePhase) := by
  simp only [Cph.step]
  cases c.settle <;> rfl

/-! ## One step of the scan phase, R24 -/

section SlewStep

variable {phase target limit : Nat}

/-- The way forward round the circle of 1024 phases. -/
def ahead (phase target : Nat) : Nat := (target + 1024 - phase) % 1024

theorem slewStep_forward (near : ahead phase target ≤ 512) :
    slewStep phase target limit = (phase + min (ahead phase target) limit) % 1024 := if_pos near

theorem slewStep_backward (far : 512 < ahead phase target) :
    slewStep phase target limit = (phase + 1024 - min (1024 - ahead phase target) limit) % 1024 :=
  if_neg (Nat.not_le.mpr far)

theorem ahead_cases (hp : phase < 1024) (ht : target < 1024) :
    phase ≤ target ∧ ahead phase target = target - phase ∨
      target < phase ∧ ahead phase target = target + 1024 - phase := by
  unfold ahead
  omega

theorem slewStep_still (hp : phase < 1024) (arrived : ahead phase target = 0) :
    slewStep phase target limit = phase := by
  rw [slewStep_forward (by omega), arrived]
  omega

theorem ahead_slewStep_forward (hp : phase < 1024) (near : ahead phase target ≤ 512) :
    ahead phase (slewStep phase target limit) = min (ahead phase target) limit := by
  rw [slewStep_forward near]
  generalize ahead phase target = d at near
  unfold ahead
  omega

theorem ahead_slewStep_backward (hp : phase < 1024) (far : 512 < ahead phase target) :
    ahead (slewStep phase target limit) phase = min (1024 - ahead phase target) limit := by
  rw [slewStep_backward far]
  generalize ahead phase target = d at far
  unfold ahead
  omega

theorem slewStep_reaches (hp : phase < 1024) (ht : target < 1024)
    (within : min (ahead phase target) (1024 - ahead phase target) ≤ limit) :
    slewStep phase target limit = target := by
  have way := ahead_cases hp ht
  by_cases near : ahead phase target ≤ 512
  · rw [slewStep_forward near]
    omega
  · rw [slewStep_backward (Nat.not_le.mp near)]
    omega

end SlewStep

/-! ## The sampling, R19 and R20 -/

theorem Camera.sample_eq (c : Camera) (high : Bool) :
    c.sample high = (match c.source with
      | .link => c.linkTally
      | .line => high == decide (c.polarity = .activeHigh)) := by
  unfold Camera.sample
  cases c.source with
  | link => rfl
  | line => cases c.polarity <;> cases high <;> rfl

theorem Cph.camera_sample (c : Cph) (lines : BitVec 8) {i : Nat} (h : i < 8) :
    (c.sample lines).camera i = { c.camera i with
      raw := match (c.camera i).source with
        | .link => (c.camera i).linkTally
        | .line => lines.getLsbD i == decide ((c.camera i).polarity = .activeHigh) } := by
  have sampled : (c.sample lines).camera i = { c.camera i with raw := (c.camera i).sample (lines.getLsbD i) } :=
    at_mapNum _ _ _ _ h
  exact sampled.trans
    (congrArg (fun raw : Bool => { c.camera i with raw := raw }) ((c.camera i).sample_eq (lines.getLsbD i)))

theorem mem_tallyRises (before after : Cph) (i : Nat) :
    i ∈ tallyRises before after ↔ i < 8 ∧ (before.camera i).raw = false ∧ (after.camera i).raw = true := by
  simp only [tallyRises, List.mem_filter, List.mem_range, Bool.and_eq_true, Bool.not_eq_true']

/-! ## CAMERA_CHANGE, R23 -/

theorem cphAtBoundary_lkd (lines : BitVec 8) (s : State) :
    (cphAtBoundary lines s).lkd =
      if (cphAtBoundary lines s).cph.winner = s.cph.winner then s.lkd
      else s.lkd.raise ⟨.cameraChange, s.rtu.counter,
        [opt2 s.cph.winner, opt2 (cphAtBoundary lines s).cph.winner, .u2 (cphAtBoundary lines s).cph.target,
          .u2 (cphAtBoundary lines s).cph.phase]⟩ := by
  rw [cphAtBoundary_cph]
  unfold cphAtBoundary cameraChange
  exact apply_ite State.lkd _ _ _

theorem cphAtBoundary_eq (lines : BitVec 8) (s : State) :
    cphAtBoundary lines s = { s with cph := (cphAtBoundary lines s).cph, lkd := (cphAtBoundary lines s).lkd } := by
  unfold cphAtBoundary cameraChange
  split <;> rfl

/-- Settles O21: the winner by the two searches of R22, the step of the scan phase by its two directions, and the
boundary's work camera by camera. -/
theorem targetSettledAndPhaseStepped : Obligations.TargetSettledAndPhaseStepped := by
  unfold Obligations.TargetSettledAndPhaseStepped
  refine ⟨fun c => ⟨c.settle_eq_some, rfl, c.step_target⟩, ?_, ?_⟩
  · intro phase target limit hp ht positive
    refine ⟨slewStep_lt _ _ _, slewStep_still hp, fun _ => ahead_slewStep_forward hp, ahead_slewStep_backward hp,
      slewStep_reaches hp ht, fun wide => slewStep_reaches hp ht ?_⟩
    exact (min_le_right _ _).trans ((Nat.sub_le _ _).trans wide)
  · intro lines s
    refine ⟨fun i number => ⟨?_, ?_⟩, fun i rise => ((mem_tallyRises _ _ i).mp rise).1, ?_, ?_, ?_, ?_,
      cphAtBoundary_lkd lines s, cphAtBoundary_eq lines s⟩
    · rw [cphAtBoundary_cph]
      exact s.cph.camera_sample lines number
    · rw [mem_tallyRises]
      exact and_iff_right number
    all_goals rw [cphAtBoundary_cph]; rfl

end Sys2Proof.Machine
end

section
/-! PROOF. The dimmer outputs (O55). -/

namespace Sys2Proof.Machine

/-! ## SET DIMMER, R165 -/

theorem DimmerSetting.change_eq {base : DimmerSetting} {q : SetDimmerReq} {p : DimmerPolarity}
    (asked : ∀ c, q.channel = some (some c) → c ≤ 767) (present : ∀ c, base.channel = some c → c ≤ 767)
    (polarity : keepOr base.polarity DimmerPolarity.ofCode q.polarity = some p) :
    base.change q = some
      ⟨match q.channel with
        | none => base.channel
        | some c => c,
       match q.divisor with
        | none => base.divisor
        | some n => max 1 (min 64 n),
       match q.minWidth with
        | none => base.minWidth
        | some n => min 1023 n, p⟩ := by
  obtain ⟨output, channel, divisor, minWidth, code⟩ := q
  have inTable : decide (767 < (channel.getD base.channel).getD 0) = false := by
    refine decide_eq_false (Nat.not_lt.mpr ?_)
    cases given : channel.getD base.channel with
    | none => exact Nat.zero_le 767
    | some c =>
      cases channel with
      | none => exact present c given
      | some x => exact asked c (congrArg some given)
  simp only [DimmerSetting.change, inTable, polarity]
  cases channel <;> cases divisor <;> cases minWidth <;> rfl

theorem setDimmer_ok {q : SetDimmerReq} {s : State} {n : DimmerSetting} (unlocked : s.fsc.showLock = false)
    (number : q.output ≤ 15)
    (change : ((s.dimmer q.output).pending.getD (s.dimmer q.output).setting).change q = some n) :
    setDimmer q s = .reply .ok ((s.dimmer q.output).setting.fields ++ pendingSettingFields (some n))
      (putDimmer q.output { s.dimmer q.output with pending := some n } s) := by
  have inTable : decide (15 < q.output) = false := decide_eq_false (Nat.not_lt.mpr number)
  simp only [setDimmer, change, unlocked, inTable, firstFailing, Bool.false_eq_true, if_false]

theorem exec_setDimmer_taken {tag : Byte} {q : SetDimmerReq} {rest : List QueuedRequest} {s : State}
    {n : DimmerSetting} (h : s.takes (.setDimmer tag q) rest) (unlocked : s.fsc.showLock = false)
    (number : q.output ≤ 15)
    (change : ((s.dimmer q.output).pending.getD (s.dimmer q.output).setting).change q = some n) :
    exec (.setDimmer tag q) s = .next
      ((putDimmer q.output { s.dimmer q.output with pending := some n } s).answered tag 0x70 .ok
        ((s.dimmer q.output).setting.fields ++ pendingSettingFields (some n)) rest) :=
  congrArg _ (serve_ok _ _ _ _ _ _ _ _ h (setDimmer_ok (s := s.atHead _ rest) unlocked number change) rfl)

/-! ## Period starts and pulse ends, R26, R166, R167 -/

/-- The tick moves to an event that the frame has not passed. -/
theorem moveTick_eq {s : State} {tick : Nat} (due : s.rtu.tick ≤ tick) :
    moveTick tick s = s.setRtu { s.rtu with tick := tick } := by
  rw [moveTick, max_eq_right due]

/-- R166: full level gives the whole period. -/
theorem dimmerWidth_full {divisor minWidth : Nat} (fits : minWidth ≤ periodTicks divisor)
    (positive : 0 < periodTicks divisor) : dimmerWidth 65535 divisor minWidth = periodTicks divisor := by
  unfold dimmerWidth
  dsimp only
  rw [if_neg (by decide), Nat.mul_div_cancel_left _ (by decide), if_neg]
  rintro (zero | short)
  · exact absurd zero (Nat.ne_of_gt positive)
  · exact absurd fits (Nat.not_le.mpr short)

section PeriodStart

variable {o j c : Nat} {s : State}

theorem execDimmerPeriodStart_none (unset : (s.dimmer o).setting.channel = none) :
    execDimmerPeriodStart o j s = .next s := by
  simp only [execDimmerPeriodStart, unset]

theorem execDimmerPeriodStart_passed (set : (s.dimmer o).setting.channel = some c)
    (gone : periodTick s.cph.phase (s.dimmer o).setting.divisor j < s.rtu.tick ∨ j ∈ (s.dimmer o).reached) :
    execDimmerPeriodStart o j s = .next s := by
  simp only [execDimmerPeriodStart, set]
  refine if_neg ?_
  rintro ⟨-, -, due, fresh⟩
  exact gone.elim (Nat.not_lt.mpr due) fresh

theorem execDimmerPeriodStart_due (ho : o ≤ 15) (set : (s.dimmer o).setting.channel = some c)
    (hj : j < (s.dimmer o).setting.divisor)
    (due : s.rtu.tick ≤ periodTick s.cph.phase (s.dimmer o).setting.divisor j) (fresh : j ∉ (s.dimmer o).reached) :
    execDimmerPeriodStart o j s = .next
      (putDimmer o
        ((s.dimmer o).start (s.channel c).output j (periodTick s.cph.phase (s.dimmer o).setting.divisor j))
        (s.setRtu { s.rtu with tick := periodTick s.cph.phase (s.dimmer o).setting.divisor j })) := by
  simp only [execDimmerPeriodStart, set]
  rw [if_pos ⟨ho, hj, due, fresh⟩, moveTick_eq due]

theorem execDimmerPulseEnd_within (active : (s.dimmer o).active = true) (within : (s.dimmer o).ends < s.rtu.endTick) :
    execDimmerPulseEnd o s =
      .next (putDimmer o { s.dimmer o with active := false } (moveTick (s.dimmer o).ends s)) :=
  if_pos ⟨active, within⟩

theorem execDimmerPulseEnd_none (idle : (s.dimmer o).active = false ∨ s.rtu.endTick ≤ (s.dimmer o).ends) :
    execDimmerPulseEnd o s = .next s := by
  refine if_neg ?_
  rintro ⟨active, within⟩
  rcases idle with off | beyond
  · exact Bool.false_ne_true (off.symm.trans active)
  · exact Nat.not_lt.mpr beyond within

end PeriodStart

/-! ## The pin, R167 -/

theorem Dimmer.pulsing_iff (d : Dimmer) (tick : Nat) : d.pulsing tick = true ↔ d.active = true ∧ tick < d.ends := by
  simp only [Dimmer.pulsing, Bool.and_eq_true, decide_eq_true_eq]

theorem Dimmer.pinHigh_iff (d : Dimmer) (tick : Nat) :
    d.pinHigh tick = true ↔ ((d.active = true ∧ tick < d.ends) ↔ d.driven = .activeHigh) := by
  rw [← d.pulsing_iff, Dimmer.pinHigh]
  cases d.driven with
  | activeHigh => exact (iff_true_right rfl).symm
  | activeLow =>
    have low : ¬DimmerPolarity.activeLow = .activeHigh := nofun
    rw [iff_false_right low, Bool.not_eq_true', Bool.not_eq_true]

/-! ## A boundary, R165, R167, R168 -/

section Boundary

variable {d : Dimmer} {n : DimmerSetting} {cut inPeriod : Bool}

theorem Dimmer.apply_none (nothing : d.pending = none) : d.apply inPeriod = d := by
  simp only [Dimmer.apply, nothing]

theorem Dimmer.apply_some (pending : d.pending = some n) (kept : n.channel ≠ none) :
    d.apply inPeriod = { d with
      setting := n, pending := none, driven := if inPeriod = false then n.polarity else d.driven } := by
  simp only [Dimmer.apply, pending, kept, or_false, if_false]

/-- R165: an output that loses its channel gives no pulse, and its pin takes the polarity at once. -/
theorem Dimmer.apply_unset (pending : d.pending = some n) (lost : n.channel = none) :
    d.apply inPeriod = { d with
      setting := n, pending := none, driven := n.polarity, active := false, width := 0, period := none } := by
  simp only [Dimmer.apply, pending, lost, or_true, if_true]

/-- What the boundary does with the pulse in progress, before the pending setting comes into force. -/
def Dimmer.passed (cut : Bool) (d : Dimmer) : Dimmer := if cut then d.cut else d.carry

theorem Dimmer.passed_pending : (d.passed cut).pending = d.pending := by cases cut <;> rfl
theorem Dimmer.passed_setting : (d.passed cut).setting = d.setting := by cases cut <;> rfl
theorem Dimmer.passed_driven : (d.passed cut).driven = d.driven := by cases cut <;> rfl

theorem Dimmer.atBoundary_none (nothing : d.pending = none) :
    d.atBoundary cut = { d.passed cut with reached := [] } := by
  have same : (d.passed cut).apply d.period.isSome = d.passed cut :=
    Dimmer.apply_none (Dimmer.passed_pending.trans nothing)
  exact congrArg (fun x : Dimmer => { x with reached := [] }) same

theorem Dimmer.atBoundary_some (pending : d.pending = some n) (kept : n.channel ≠ none) :
    d.atBoundary cut = { d.passed cut with
      setting := n, pending := none, driven := if d.period = none then n.polarity else d.driven, reached := [] } := by
  have applied :=
    Dimmer.apply_some (inPeriod := d.period.isSome) (Dimmer.passed_pending (cut := cut).trans pending) kept
  simp only [Dimmer.passed_driven, Option.isSome_eq_false_iff, Option.isNone_iff_eq_none] at applied
  exact congrArg (fun x : Dimmer => { x with reached := [] }) applied

theorem Dimmer.atBoundary_unset (pending : d.pending = some n) (lost : n.channel = none) :
    d.atBoundary cut = { d.passed cut with
      setting := n, pending := none, driven := n.polarity, active := false, width := 0, period := none
      reached := [] } :=
  congrArg (fun x : Dimmer => { x with reached := [] })
    (Dimmer.apply_unset (Dimmer.passed_pending.trans pending) lost)

theorem douAtBoundary_dimmer {o : Nat} (s : State) (ho : o ≤ 15) :
    (douAtBoundary cut s).dimmer o = (s.dimmer o).atBoundary cut :=
  at_mapNum _ _ _ _ (Nat.lt_succ_of_le ho)

/-- R165, R167, R168: an output after a boundary, by what was pending. -/
theorem Dimmer.atBoundary_spec (cut : Bool) (d : Dimmer) :
    let e := d.atBoundary cut
    e.pending = none ∧ e.setting = d.pending.getD d.setting ∧ e.reached = [] ∧
      (cut = true → e.active = false ∧ e.period = none) ∧
      (cut = false → (d.pending = none ∨ e.setting.channel ≠ none) →
        e.active = (d.active && decide (65536 < d.ends)) ∧ e.ends = d.ends - 65536 ∧ e.width = d.width) ∧
      (d.pending ≠ none → e.setting.channel = none → e.active = false ∧ e.width = 0 ∧ e.driven = e.setting.polarity) ∧
      e.driven = (if d.pending ≠ none ∧ (d.period = none ∨ e.setting.channel = none) then e.setting.polarity
        else d.driven) := by
  intro e
  have cutStops : cut = true → (d.passed cut).active = false ∧ (d.passed cut).period = none := by
    rintro rfl
    exact ⟨rfl, rfl⟩
  have carries : cut = false → (d.passed cut).active = (d.active && decide (65536 < d.ends)) ∧
      (d.passed cut).ends = d.ends - 65536 ∧ (d.passed cut).width = d.width := by
    rintro rfl
    exact ⟨rfl, rfl, rfl⟩
  cases pending : d.pending with
  | none =>
    have he : e = _ := Dimmer.atBoundary_none pending
    rw [he]
    refine ⟨Dimmer.passed_pending.trans pending, Dimmer.passed_setting, rfl, cutStops, fun whole _ => carries whole,
      fun some => absurd rfl some, ?_⟩
    rw [if_neg fun some => some.1 rfl]
    exact Dimmer.passed_driven
  | some n =>
    have isPending : some n ≠ none := Option.some_ne_none n
    by_cases lost : n.channel = none
    · have he : e = _ := Dimmer.atBoundary_unset pending lost
      rw [he]
      refine ⟨rfl, rfl, rfl, fun _ => ⟨rfl, rfl⟩, fun _ kept => ?_, fun _ _ => ⟨rfl, rfl, rfl⟩, ?_⟩
      · exact absurd lost (kept.resolve_left isPending)
      · exact (if_pos ⟨isPending, .inr lost⟩).symm
    · have he : e = _ := Dimmer.atBoundary_some pending lost
      rw [he]
      refine ⟨rfl, rfl, rfl, cutStops, fun whole _ => carries whole, fun _ unset => absurd unset lost, ?_⟩
      simp only [isPending, lost, ne_eq, not_false_eq_true, true_and, or_false]

end Boundary

/-- Settles O55: the request's new setting, a period start with its tick due or passed, the pulse's end, the pin, and a
boundary by what was pending. -/
theorem dimmerOutputs : Obligations.DimmerOutputs := by
  unfold Obligations.DimmerOutputs
  intro o s ho d
  refine ⟨?_, ?_, fun unset j => execDimmerPeriodStart_none unset, ?_, execDimmerPulseEnd_none, d.pinHigh_iff, ?_⟩
  · rintro tag q rest p h rfl unlocked asked present polarity base channel divisor minWidth
    exact ⟨_, exec_setDimmer_taken h unlocked ho (DimmerSetting.change_eq asked present polarity)⟩
  · intro j c set hj width tick level w
    refine ⟨fun full fits positive => ?_, execDimmerPeriodStart_passed set, execDimmerPeriodStart_due ho set hj⟩
    have whole : dimmerWidth level d.setting.divisor d.setting.minWidth = width := by
      rw [full]
      exact dimmerWidth_full fits positive
    exact whole
  · exact execDimmerPulseEnd_within
  · intro cut
    rw [douAtBoundary_dimmer s ho]
    exact Dimmer.atBoundary_spec cut d

end Sys2Proof.Machine
end

section
/-! PROOF. What a latch instant sends (O45). -/

namespace Sys2Proof.Machine

/-! ## Walls after the operations on them -/

section Walls

variable (s : State) (w v : Nat) (x : Wall) (f : FrameParams)

theorem modWall_wall (g : Wall → Wall) :
    (modWall w g s).wall v = if v = w then (s.wall v).map g else s.wall v := Table.find_modify w v g s.wse.walls

theorem reach_wall (k tick : Nat) :
    (reach w k (moveTick tick s)).wall v =
      if v = w then (s.wall v).map (fun y => { y with reached := k :: y.reached }) else s.wall v :=
  modWall_wall (moveTick tick s) w v _

theorem composeRun_wall (n : Nat) :
    (composeRun w n x f s).wall v =
      if v = w then (s.wall v).map (fun y => { y with
        picture := y.picture ++ s.runValues w x f x.picture.length (min n (x.area - x.picture.length)) })
      else s.wall v := Table.find_modify w v _ s.wse.walls

theorem sendSubFrame_wall :
    (sendSubFrame w x f s).wall v =
      if v = w then (s.wall v).map (fun y => { y with clipFlag := y.clipFlag || s.anyClipped w x f }) else s.wall v :=
  modWall_wall _ w v _

/-- R89: a chain that carries the wall's tiles gets its sub-frame; any other stays as it is. -/
theorem sendSubFrame_chain {c : Nat} (number : c < 8) :
    (sendSubFrame w x f s).chain c =
      if s.carries w c = true then (s.chain c).send x f c s.rtu.counter (chainTiles c s.wse.frameTiles)
      else s.chain c := at_mapNum _ _ _ _ number

end Walls

/-! ## The picture at the instant, R98 and log 12 -/

section Compose

variable {s t : State} (w : Nat)

theorem offer_congr (layer x y : Nat) (fl : FrameLayer) (hfsc : t.fsc = s.fsc) (hlip : t.lip = s.lip) :
    t.offer w layer fl x y = s.offer w layer fl x y := by
  have bound (id : Nat) : t.isBound id = s.isBound id :=
    congrArg (fun l : Lip => decide (l.bound = some id)) hlip
  simp only [State.offer, State.sourceBuffer, State.latched, bound, hfsc, hlip]

theorem composeFrom_congr (x y layer : Nat) (layers : List FrameLayer) (acc : Rgb) (hfsc : t.fsc = s.fsc)
    (hlip : t.lip = s.lip) : t.composeFrom w x y layer layers acc = s.composeFrom w x y layer layers acc := by
  induction layers generalizing layer acc with
  | nil => rfl
  | cons fl rest ih => rw [State.composeFrom, State.composeFrom, offer_congr w layer x y fl hfsc hlip, ih]

/-- Composition reads the frame store and the live input, and nothing else of the state. -/
theorem runValues_congr (x : Wall) (f : FrameParams) (start n : Nat) (hfsc : t.fsc = s.fsc) (hlip : t.lip = s.lip) :
    t.runValues w x f start n = s.runValues w x f start n := by
  simp only [State.runValues, State.wallValue, composeFrom_congr w _ _ _ _ _ hfsc hlip]

end Compose

/-- The wall whose latch instant `k` is reached, with its picture composed to the end. -/
def Wall.atInstant (s : State) (w k : Nat) (f : FrameParams) (x : Wall) : Wall :=
  { x with
    picture := x.picture ++ s.runValues w x f x.picture.length (x.width * x.height - x.picture.length)
    reached := k :: x.reached }

/-- The state in which a latch instant sends: the tick moved on, the instant reached, the picture composed. -/
def State.composedAt (s : State) (w k tick : Nat) (f : FrameParams) (x : Wall) : State :=
  composeRun w x.area x f (reach w k (moveTick tick s))

theorem State.composedAt_wall {s : State} {w k tick : Nat} {f : FrameParams} {x : Wall} (hx : s.wall w = some x) :
    (s.composedAt w k tick f x).wall w = some (x.atInstant s w k f) := by
  have rest : min x.area (x.area - x.picture.length) = x.area - x.picture.length := min_eq_right (Nat.sub_le _ _)
  have same (start n : Nat) : (reach w k (moveTick tick s)).runValues w x f start n = s.runValues w x f start n :=
    runValues_congr w x f start n rfl rfl
  rw [State.composedAt, composeRun_wall, if_pos rfl, reach_wall, if_pos rfl, hx, rest, same]
  rfl

theorem State.composedAt_wall_other (s : State) {w k tick v : Nat} {f : FrameParams} {x : Wall} (other : v ≠ w) :
    (s.composedAt w k tick f x).wall v = s.wall v := by
  rw [State.composedAt, composeRun_wall, if_neg other, reach_wall, if_neg other]

/-- Sending and composing write the walls, the chains and the zones; the tick is the instant's. -/
theorem sendSubFrame_composedAt_eq {s : State} {w k tick : Nat} {f : FrameParams} {x : Wall} (y : Wall)
    (due : s.rtu.tick ≤ tick) :
    sendSubFrame w y f (s.composedAt w k tick f x) =
      { s with
        rtu := { s.rtu with tick := tick }
        wse := (sendSubFrame w y f (s.composedAt w k tick f x)).wse } := by
  rw [State.composedAt, moveTick_eq due]
  rfl

/-! ## The command -/

section LatchInstant

variable {s : State} {w k : Nat} {x : Wall} {f : FrameParams}

theorem instantDue_iff {tick : Nat} :
    s.instantDue x k tick = true ↔ k < x.refresh ∧ s.rtu.tick ≤ tick ∧ k ∉ x.reached := by
  simp only [State.instantDue, Bool.and_eq_true, decide_eq_true_eq, Bool.not_eq_true', List.contains_eq_mem,
    decide_eq_false_iff_not, and_assoc]

theorem execLatchInstant_passed (hx : s.wall w = some x) (hf : x.frame = some f)
    (gone : latchTick s.cph.phase x.refresh k < s.rtu.tick ∨ k ∈ x.reached) :
    execLatchInstant w k s = .next s := by
  have notDue : ¬s.instantDue x k (latchTick s.cph.phase x.refresh k) = true := by
    rw [instantDue_iff]
    rintro ⟨-, due, fresh⟩
    exact gone.elim (Nat.not_lt.mpr due) fresh
  simp only [execLatchInstant, hx, hf, notDue, if_false, Bool.false_eq_true]

theorem execLatchInstant_due (hx : s.wall w = some x) (hf : x.frame = some f) (hk : k < x.refresh)
    (due : s.rtu.tick ≤ latchTick s.cph.phase x.refresh k) (fresh : k ∉ x.reached) (pages : s.framePages f = true) :
    execLatchInstant w k s = .next
      (sendSubFrame w (x.atInstant s w k f) f
        (s.composedAt w k (latchTick s.cph.phase x.refresh k) f x)) := by
  have isDue : s.instantDue x k (latchTick s.cph.phase x.refresh k) = true := instantDue_iff.mpr ⟨hk, due, fresh⟩
  have composed := State.composedAt_wall (k := k) (tick := latchTick s.cph.phase x.refresh k) (f := f) hx
  rw [State.composedAt] at composed ⊢
  simp only [execLatchInstant, hx, hf, isDue, pages, composed, if_true]

end LatchInstant

/-- Settles O45: the instant's picture is the wall of `Wall.atInstant`, and what is sent is that of `sendSubFrame`. -/
theorem latchInstantSendsPicture : Obligations.LatchInstantSendsPicture := by
  unfold Obligations.LatchInstantSendsPicture
  intro w k x f s hx hf hk tick
  refine ⟨execLatchInstant_passed hx hf, fun due fresh pages => ?_⟩
  have composed := State.composedAt_wall (k := k) (tick := tick) (f := f) hx
  refine ⟨_, x.atInstant s w k f, execLatchInstant_due hx hf hk due fresh pages, rfl, ?_, fun v other => ?_,
    fun c number carried => ?_, fun c number free => ?_, rfl, rfl, ?_⟩
  · exact (sendSubFrame_wall _ w w _ f).trans ((if_pos rfl).trans (congrArg _ composed))
  · exact (sendSubFrame_wall _ w v _ f).trans ((if_neg other).trans (s.composedAt_wall_other other))
  · exact (sendSubFrame_chain _ w _ f number).trans (if_pos carried)
  · exact (sendSubFrame_chain _ w _ f number).trans (if_neg (Bool.eq_false_iff.mp free))
  · exact sendSubFrame_composedAt_eq _ due

end Sys2Proof.Machine
end

section
/-! PROOF. Writes and fills that are posted, wait for a place, or are refused (O27). -/

namespace Sys2Proof.Machine

/-! ## The six checks, R52 and R54 -/

/-- The checks that a write and a fill for region `id` share: what is wrong with the request itself, and what lies
outside the region it names, are the request's own. -/
def State.postFailing (s : State) (id : Nat) (malformed : Bool) (outside : Region → Bool) : Option Status :=
  match firstFailing [(decide (s.fsc.store ≠ .ready), .notReady), (malformed, .range)], s.region id with
  | some st, _ => some st
  | none, none => some .noSuch
  | none, some r => firstFailing [(s.isBound id, .inUse), (outside r, .range), (r.guarded, .onAir)]

theorem Region.guarded_iff (r : Region) : r.guarded = true ↔ r.protect = true ∧ 0 < r.air := by
  simp only [Region.guarded, Bool.and_eq_true, decide_eq_true_eq]

theorem State.isBound_iff (s : State) (id : Nat) : s.isBound id = true ↔ s.lip.bound = some id :=
  decide_eq_true_iff

/-- The checks one after the other. -/
theorem State.postFailing_eq {s : State} {id : Nat} {malformed : Bool} {outside : Region → Bool} {p : Prop}
    {o : Region → Prop} [Decidable p] [DecidablePred o] (hp : malformed = true ↔ p) (ho : ∀ r, outside r = true ↔ o r) :
    s.postFailing id malformed outside =
      if s.fsc.store ≠ .ready then some .notReady
      else if p then some .range
      else (s.region id).elim (some .noSuch) fun r =>
        if s.lip.bound = some id then some .inUse
        else if o r then some .range
        else if r.protect = true ∧ 0 < r.air then some .onAir
        else none := by
  simp only [State.postFailing, firstFailing, decide_eq_true_eq, hp]
  by_cases store : s.fsc.store ≠ .ready
  · simp only [if_pos store]
  by_cases wrong : p
  · simp only [if_neg store, if_pos wrong]
  simp only [if_neg store, if_neg wrong]
  cases s.region id with
  | none => rfl
  | some r => simp only [Option.elim_some, State.isBound_iff, ho, Region.guarded_iff]

theorem writeFailing_eq (q : WriteContentReq) (s : State) :
    writeFailing q s = s.postFailing q.region (decide (63 < q.region) || q.pixels.isEmpty)
      fun r => decide (r.width * r.height < q.offset + q.pixels.length) := rfl

theorem fillFailing_eq (q : FillRegionReq) (s : State) :
    fillFailing q s = s.postFailing q.region
      (decide (63 < q.region) || !rgbInRange q.colour || decide (q.rect.width = 0) || decide (q.rect.height = 0))
      fun r => decide (r.width < q.rect.x + q.rect.width) || decide (r.height < q.rect.y + q.rect.height) := rfl

theorem malformed_write_iff (q : WriteContentReq) :
    (decide (63 < q.region) || q.pixels.isEmpty) = true ↔ 63 < q.region ∨ q.pixels = [] := by
  simp only [Bool.or_eq_true, decide_eq_true_eq, List.isEmpty_iff]

theorem malformed_fill_iff (q : FillRegionReq) :
    (decide (63 < q.region) || !rgbInRange q.colour || decide (q.rect.width = 0) || decide (q.rect.height = 0)) = true ↔
      63 < q.region ∨ 1023 < q.colour.r ∨ 1023 < q.colour.g ∨ 1023 < q.colour.b ∨ q.rect.width = 0 ∨
        q.rect.height = 0 := by
  simp only [rgbInRange, Bool.or_eq_true, Bool.not_eq_true', Bool.and_eq_false_iff, decide_eq_true_eq,
    decide_eq_false_iff_not, not_le, or_assoc]

/-- A request that none of the checks stops. -/
theorem State.postFailing_none {s : State} {id : Nat} {malformed : Bool} {outside : Region → Bool} {r : Region}
    (ready : s.fsc.store = .ready) (formed : ¬malformed = true) (found : s.region id = some r)
    (unbound : s.lip.bound ≠ some id) (inside : ¬outside r = true) (unguarded : ¬(r.protect = true ∧ 0 < r.air)) :
    s.postFailing id malformed outside = none := by
  rw [State.postFailing_eq Iff.rfl fun _ => Iff.rfl, found, if_neg (not_not.mpr ready), if_neg formed,
    Option.elim_some, if_neg unbound, if_neg inside, if_neg unguarded]

/-! ## Acceptance, R53 -/

theorem acceptEntry_eq (e : PostEntry) (s : State) :
    acceptEntry e s = s.setFsc { s.fsc with
      regions := s.fsc.regions.modify e.region (fun x => { x with posted := x.posted + 1 })
      posting := s.fsc.posting ++ [e] } := rfl

theorem acceptFields_writeEntry (q : WriteContentReq) (s : State) :
    acceptFields (writeEntry q) s = [.u1 q.region, .u4 q.pixels.length, .u1 (s.fsc.posting.length + 1)] := by
  simp only [acceptFields, writeEntry, PostEntry.total, List.length_map]

theorem acceptFields_fillEntry (q : FillRegionReq) (s : State) :
    acceptFields (fillEntry q) s =
      [.u1 q.region, .u4 (q.rect.width * q.rect.height), .u1 (s.fsc.posting.length + 1)] := rfl

section Posting

variable {s : State} {cmd : Instr} {tag kind : Byte} {rest : List QueuedRequest} {failing : State → Option Status}
  {e : PostEntry}

theorem serve_placeEntry_failing {st : Status} (h : s.takes cmd rest) (fails : failing (s.atHead cmd rest) = some st) :
    serve cmd tag kind (fun t => placeEntry (failing t) e t) s = s.answered tag kind st [] rest :=
  serve_refused _ _ _ _ _ _ _ h (by simp only [placeEntry, fails])

/-- A request that passes is posted where the buffer has a place; otherwise its reply is withheld. -/
theorem serve_placeEntry_passing (h : s.takes cmd rest) (passes : failing (s.atHead cmd rest) = none) :
    serve cmd tag kind (fun t => placeEntry (failing t) e t) s =
      if s.fsc.posting.length < 8 then (acceptEntry e s).answered tag kind .ok (acceptFields e s) rest
      else s.setLkd { s.lkd with hold := .place, requests := .command cmd :: rest } := by
  have place : placeEntry (failing (s.atHead cmd rest)) e (s.atHead cmd rest) =
      if s.fsc.posting.length < 8 then .reply .ok (acceptFields e s) (acceptEntry e (s.atHead cmd rest))
      else .withhold .place (s.atHead cmd rest) := by
    rw [passes]
    rfl
  by_cases room : s.fsc.posting.length < 8
  · rw [if_pos room] at place ⊢
    exact serve_ok _ _ _ _ _ _ (acceptEntry e (s.atHead cmd rest)) _ h place rfl
  · rw [if_neg room] at place ⊢
    exact serve_withhold _ _ _ (fun t => placeEntry (failing t) e t) _ _ _ _ h place

/-- The withheld reply, and the request queue that goes on. -/
theorem answerHead_eq {t : State} {q : QueuedRequest} {st : Status} {fields : List Field}
    (head : t.lkd.requests = q :: rest) :
    answerHead tag kind st fields t = (t.setLkd { t.lkd with hold := .free }).answered tag kind st fields rest := by
  rw [answerHead, Lkd.addReply_same, head]
  rfl

theorem retryEntry_failing {q : QueuedRequest} {st : Status} (head : s.lkd.requests = q :: rest) :
    retryEntry tag kind (some st) e s = (s.setLkd { s.lkd with hold := .free }).answered tag kind st [] rest :=
  answerHead_eq head

theorem retryEntry_passing {q : QueuedRequest} (head : s.lkd.requests = q :: rest) :
    retryEntry tag kind none e s =
      ((acceptEntry e s).setLkd { s.lkd with hold := .free }).answered tag kind .ok (acceptFields e s) rest :=
  answerHead_eq (t := acceptEntry e s) head

theorem exec_waitingRequestAccept_write {q : WriteContentReq} (waits : s.lkd.hold = .place)
    (room : s.fsc.posting.length < 8) (head : s.lkd.requests = .command (.writeContent tag q) :: rest) :
    exec .waitingRequestAccept s = .next (retryEntry tag 0x25 (writeFailing q s) (writeEntry q) s) := by
  show execWaitingRequestAccept s = _
  rw [execWaitingRequestAccept, if_pos ⟨waits, room⟩, head]

theorem exec_waitingRequestAccept_fill {q : FillRegionReq} (waits : s.lkd.hold = .place)
    (room : s.fsc.posting.length < 8) (head : s.lkd.requests = .command (.fillRegion tag q) :: rest) :
    exec .waitingRequestAccept s = .next (retryEntry tag 0x26 (fillFailing q s) (fillEntry q) s) := by
  show execWaitingRequestAccept s = _
  rw [execWaitingRequestAccept, if_pos ⟨waits, room⟩, head]

end Posting

/-- Settles O27: both requests make the same six checks, and are placed, or tried again, in the same way. -/
theorem writesAndFillsPosted : Obligations.WritesAndFillsPosted := by
  refine ⟨fun q s => ?checksOfWrite, fun q s => ?checksOfFill, fun tag rest s => ⟨fun q taken => ?write,
    fun q taken => ?fill⟩, fun tag q f rest s waits room => ⟨fun head => ?writeAgain, fun head => ?fillAgain⟩⟩
  case checksOfWrite =>
    rw [writeFailing_eq, State.postFailing_eq (malformed_write_iff q) fun r => decide_eq_true_iff]
    cases s.region q.region <;> rfl
  case checksOfFill =>
    rw [fillFailing_eq, State.postFailing_eq (malformed_fill_iff q)
      (o := fun r => r.width < q.rect.x + q.rect.width ∨ r.height < q.rect.y + q.rect.height)
      fun r => by simp only [Bool.or_eq_true, decide_eq_true_eq]]
    cases s.region q.region <;> rfl
  case write =>
    refine ⟨fun st fails => congrArg _ (serve_placeEntry_failing (failing := writeFailing q) taken fails), ?_⟩
    intro r ready number pixels found unbound inside unguarded
    have passes : writeFailing q s = none :=
      State.postFailing_none ready (mt (malformed_write_iff q).mp (not_or.mpr ⟨not_lt.mpr number, pixels⟩)) found
        unbound (by simpa only [decide_eq_true_eq, not_lt] using inside) unguarded
    rw [← acceptFields_writeEntry]
    exact congrArg _ (serve_placeEntry_passing (failing := writeFailing q) taken passes)
  case fill =>
    refine ⟨fun st fails => congrArg _ (serve_placeEntry_failing (failing := fillFailing q) taken fails), ?_⟩
    intro r ready number red green blue wide high found unbound right bottom unguarded
    have passes : fillFailing q s = none :=
      State.postFailing_none ready (by rw [malformed_fill_iff]; omega) found unbound
        (by simp only [Bool.or_eq_true, decide_eq_true_eq]; omega) unguarded
    exact congrArg _ (serve_placeEntry_passing (failing := fillFailing q) taken passes)
  case writeAgain =>
    rw [exec_waitingRequestAccept_write waits room head]
    refine ⟨fun st fails => ?_, fun passes => ?_⟩
    · rw [fails, retryEntry_failing head]
    · rw [passes, retryEntry_passing head, acceptFields_writeEntry]
      rfl
  case fillAgain =>
    rw [exec_waitingRequestAccept_fill waits room head]
    refine ⟨fun st fails => ?_, fun passes => ?_⟩
    · rw [fails, retryEntry_failing head]
    · rw [passes, retryEntry_passing head]
      rfl

end Sys2Proof.Machine
end

section
/-! PROOF. Bursts of posting retirement, written or discarded (O28). -/

namespace Sys2Proof.Machine

/-! ## Pixels that are not written -/

theorem Fsc.pixelAddr_writePixel (f : Fsc) (r : Region) (b q : Nat) (w : Word) :
    (f.writePixel r b q w).pixelAddr = f.pixelAddr := by
  obtain ⟨m, hm⟩ := f.writePixel_eq r b q w
  rw [hm]
  rfl

theorem Fsc.read_writePixel_other (f : Fsc) (r : Region) (b q a : Nat) (w : Word)
    (off : ∀ c, f.pixelAddr r b q = some c → a < c ∨ c + 3 < a) :
    Memory.read (f.writePixel r b q w).mem a = Memory.read f.mem a := by
  unfold Fsc.writePixel
  split
  · next c hc => exact Memory.read_writeWord_other f.mem c a w (off c hc)
  · rfl

/-- Pixels written one after the other leave every byte that lies in none of them. -/
theorem Fsc.read_foldl_writePixel_other {β : Type} (g : β → Nat × Nat × Word) (r : Region) (l : List β) (f : Fsc)
    (a : Nat) (off : ∀ p ∈ l, ∀ c, f.pixelAddr r (g p).1 (g p).2.1 = some c → a < c ∨ c + 3 < a) :
    Memory.read (l.foldl (fun f p => f.writePixel r (g p).1 (g p).2.1 (g p).2.2) f).mem a = Memory.read f.mem a := by
  induction l generalizing f with
  | nil => rfl
  | cons p rest ih =>
    rw [List.forall_mem_cons] at off
    rw [List.foldl_cons, ih _ (by simpa only [Fsc.pixelAddr_writePixel] using off.2),
      Fsc.read_writePixel_other _ _ _ _ _ _ off.1]

theorem Fsc.read_writePixels_other (f : Fsc) (r : Region) (pixels : List (Nat × Word)) (a : Nat)
    (off : ∀ p ∈ pixels, ∀ c, f.pixelAddr r 0 p.1 = some c → a < c ∨ c + 3 < a) :
    Memory.read (f.writePixels r pixels).mem a = Memory.read f.mem a :=
  Fsc.read_foldl_writePixel_other (fun p : Nat × Word => (0, p.1, p.2)) r pixels f a off

/-! ## The pixels of a burst, R55 and R60 -/

theorem PostEntry.burst_write_length (id offset done : Nat) (pixels : List Word) (r : Region) :
    ((⟨id, .write offset pixels, done⟩ : PostEntry).burst r).length = pixels.length :=
  mapFrom_length _ 0 pixels

theorem PostEntry.burst_write_getElem? (id offset done : Nat) (pixels : List Word) (r : Region) (i : Nat) :
    ((⟨id, .write offset pixels, done⟩ : PostEntry).burst r)[i]? = pixels[i]?.map fun w => (offset + i, w) := by
  simp only [PostEntry.burst, mapFrom_getElem?, Nat.zero_add]

theorem PostEntry.burst_fill_length (id done : Nat) (rect : Rect) (colour : Rgb) (r : Region) :
    ((⟨id, .fill rect colour, done⟩ : PostEntry).burst r).length = min 256 (rect.width * rect.height - done) := by
  simp only [PostEntry.burst, List.length_map, List.length_range]

theorem PostEntry.burst_fill_getElem? {id done : Nat} {rect : Rect} {colour : Rgb} {r : Region} {i : Nat}
    (within : i < min 256 (rect.width * rect.height - done)) :
    ((⟨id, .fill rect colour, done⟩ : PostEntry).burst r)[i]? =
      some (rectOffset rect r.width (done + i), wordOf colour) := by
  simp only [PostEntry.burst, List.getElem?_map, List.getElem?_range within, Option.map_some]

/-! ## The grant, R48 and R56 -/

theorem headLeaves_eq (id : Nat) (s : State) :
    headLeaves id s = s.setFsc { s.fsc with
      posting := s.fsc.posting.tail
      regions := s.fsc.regions.modify id (fun x => { x with posted := x.posted - 1 }) } := rfl

section Grant

variable {s : State} {asks : Asks} {e : PostEntry} {rest : List PostEntry} {r : Region}

theorem arbitrate_posting (noScan : asks.scan = none) (noLive : asks.live = 0) (head : s.fsc.posting = e :: rest) :
    arbitrate asks s = some .posting := by
  simp [arbitrate, noScan, noLive, head]

theorem burstFails_none (unguarded : ¬(r.protect = true ∧ 0 < r.air)) (unbound : s.lip.bound ≠ some e.region) :
    burstFails e.region r s = none := by
  rw [burstFails, if_neg (mt r.guarded_iff.mp unguarded), if_neg (mt (s.isBound_iff _).mp unbound)]

theorem burstFails_some {cause : DiscardCause}
    (why : r.protect = true ∧ 0 < r.air ∧ cause = .onAir ∨
      ¬(r.protect = true ∧ 0 < r.air) ∧ s.lip.bound = some e.region ∧ cause = .bound) :
    burstFails e.region r s = some cause := by
  rcases why with ⟨protect, air, rfl⟩ | ⟨unguarded, bound, rfl⟩
  · rw [burstFails, if_pos (r.guarded_iff.mpr ⟨protect, air⟩)]
  · rw [burstFails, if_neg (mt r.guarded_iff.mp unguarded), if_pos ((s.isBound_iff _).mpr bound)]

theorem exec_burstGrant_discarded {cause : DiscardCause} (granted : arbitrate asks s = some .posting)
    (head : s.fsc.posting = e :: rest) (found : s.region e.region = some r)
    (fails : burstFails e.region r s = some cause) :
    exec (.burstGrant asks) s = .next (discardHead e r cause s) := by
  show execBurstGrant asks s = _
  simp only [execBurstGrant, granted, head, found, fails, if_true]

theorem exec_burstGrant_written (granted : arbitrate asks s = some .posting) (head : s.fsc.posting = e :: rest)
    (found : s.region e.region = some r) (passes : burstFails e.region r s = none) (stored : s.fsc.inStore r = true) :
    exec (.burstGrant asks) s = .next (writeBurst e rest r s) := by
  show execBurstGrant asks s = _
  simp only [execBurstGrant, granted, head, found, passes, stored, if_true]

/-! ## The two outcomes, R55 and R57 to R60 -/

theorem discardHead_eq (cause : DiscardCause) (head : s.fsc.posting = e :: rest) :
    discardHead e r cause s =
      let d := discardOf e r cause s.rtu.counter
      (s.setFsc { s.fsc with
        posting := rest, discards := min 65535 (s.fsc.discards + 1), lastDiscard := some d
        regions := s.fsc.regions.modify e.region (fun x => { x with posted := x.posted - 1 })
      }).setLkd (s.lkd.raise ⟨.writeDiscarded, s.rtu.counter,
        [.u2 e.region, .u2 (boolCode d.isFill), .u2 cause.code, .u2 d.offset, .u2 (e.total - e.done)]⟩) := by
  have left : s.fsc.posting.tail = rest := by rw [head]; rfl
  rw [← left]
  rfl

/-- The last burst of an entry: the pixels are written and the entry leaves. -/
theorem writeBurst_last (head : s.fsc.posting = e :: rest) (last : e.total ≤ e.done + (e.burst r).length) :
    writeBurst e rest r s = s.setFsc { s.fsc with
      mem := (s.fsc.writePixels r (e.burst r)).mem, posting := rest
      regions := s.fsc.regions.modify e.region (fun x => { x with posted := x.posted - 1 }) } := by
  obtain ⟨m, hm⟩ := s.fsc.writePixels_eq r (e.burst r)
  simp only [writeBurst, if_pos last, headLeaves_eq, hm, State.setFsc_fsc, State.setFsc_setFsc, head, List.tail_cons]

/-- A burst that leaves pixels to do: the entry stays at the head, with its pixels done counted. -/
theorem writeBurst_more (more : e.done + (e.burst r).length < e.total) :
    writeBurst e rest r s = s.setFsc { s.fsc with
      mem := (s.fsc.writePixels r (e.burst r)).mem
      posting := { e with done := e.done + (e.burst r).length } :: rest } := by
  obtain ⟨m, hm⟩ := s.fsc.writePixels_eq r (e.burst r)
  simp only [writeBurst, if_neg (not_le.mpr more), hm, State.setFsc_fsc, State.setFsc_setFsc]

end Grant

/-- Settles O28: the pixels of a burst by the entry's kind, then a grant whose burst passes, whether it ends the entry
or not, then a grant whose burst fails. -/
theorem burstsWrittenOrDiscarded : Obligations.BurstsWrittenOrDiscarded := by
  refine ⟨?_, ?_, ?_⟩
  · rintro ⟨id, kind, done⟩ r cause counter
    refine ⟨rfl, rfl, rfl, ?_⟩
    cases kind with
    | write offset pixels =>
      refine ⟨rfl, PostEntry.burst_write_length id offset done pixels r, fun i w here => ?_, rfl, rfl, rfl⟩
      rw [PostEntry.burst_write_getElem?, here, Option.map_some]
    | fill rect colour =>
      refine ⟨rfl, PostEntry.burst_fill_length id done rect colour r, fun i within => ?_, rfl, rfl, rfl⟩
      rw [PostEntry.burst_fill_length] at within
      exact PostEntry.burst_fill_getElem? within
  · intro asks e rest r s noScan noLive head found stored unguarded unbound
    have granted := arbitrate_posting noScan noLive head
    refine ⟨_, exec_burstGrant_written granted head found (burstFails_none unguarded unbound) stored, ?_⟩
    have kept (a : Nat) := s.fsc.read_writePixels_other r (e.burst r) a
    by_cases last : e.total ≤ e.done + (e.burst r).length
    · rw [writeBurst_last head last]
      exact ⟨rfl, kept, fun _ => ⟨rfl, rfl⟩, fun more => absurd last (not_le.mpr more), rfl⟩
    · rw [writeBurst_more (not_le.mp last)]
      exact ⟨rfl, kept, fun ends => absurd ends last, fun _ => ⟨rfl, rfl⟩, rfl⟩
  · intro asks e rest r cause s noScan noLive head found why
    rw [exec_burstGrant_discarded (arbitrate_posting noScan noLive head) head found (burstFails_some why),
      discardHead_eq cause head]

end Sys2Proof.Machine
end

section
/-! SUPPORT. The roles of the three buffers of the live input, R66 and R72: what keeps the writer buffer free of the
layers' latches and apart from the newest. -/

namespace Sys2Proof.Machine

/-! ## Entries of the latch table -/

theorem mem_mapNum {α β : Type} {n : Nat} {f : Nat → α → β} {v : Vector α n} {y : β} (h : y ∈ (mapNum f v).toList) :
    ∃ i, ∃ x ∈ v.toList, y = f i x :=
  mem_mapFrom f 0 v.toList y h

theorem mem_noLatches {e : Option Latch} (h : e ∈ noLatches.toList) : e = none := by
  rw [noLatches, Vector.toList_replicate] at h
  exact List.eq_of_mem_replicate h

namespace Lip

theorem latched_eq_false_iff {l : Lip} {b : Nat} :
    l.latched b = false ↔ ∀ e ∈ l.latch.toList, e.map (·.buffer) ≠ some b := by
  simp only [latched, List.any_eq_false, decide_eq_true_eq, ne_eq]

theorem latched_noLatches {l : Lip} (h : l.latch = noLatches) (b : Nat) : l.latched b = false := by
  refine latched_eq_false_iff.mpr fun e he => ?_
  rw [h] at he
  rw [mem_noLatches he]
  exact nofun

/-! ## The roles -/

/-- What `State.writerFree` says, of the Live Input Port alone. -/
def writerFree (l : Lip) : Prop :=
  (l.port = .off ↔ l.bound = none) ∧ (l.bound = none → l.writer = none ∧ l.newest = none) ∧
    ∀ w, l.writer = some w → w ≤ 2 ∧ l.latched w = false ∧ l.newest ≠ some w

/-- A port that is not OFF before nor after. -/
theorem writerFree.port {l : Lip} {new : LiveState} (h : l.writerFree) (before : l.port ≠ .off) (after : new ≠ .off) :
    ({ l with port := new } : Lip).writerFree :=
  ⟨iff_of_false after (mt h.1.mpr before), h.2⟩

/-- R73: new latches are old ones or name the newest buffer, which is not the writer's. -/
theorem writerFree.latch {l : Lip} {latch : Vector (Option Latch) 16} {shown : Bool} (h : l.writerFree)
    (hl : ∀ e ∈ latch.toList, e ∈ l.latch.toList ∨ ∀ b, e.map (·.buffer) = some b → l.newest = some b) :
    ({ l with latch := latch, shown := shown } : Lip).writerFree := by
  obtain ⟨off, unbound, writer⟩ := h
  refine ⟨off, unbound, fun w hw => ?_⟩
  obtain ⟨number, free, apart⟩ := writer w hw
  refine ⟨number, latched_eq_false_iff.mpr fun e he => ?_, apart⟩
  rcases hl e he with old | newest
  · exact latched_eq_false_iff.mp free e old
  · exact fun names => apart (newest w names)

/-- R72: a free buffer is one of the three, is not the completed one, and is latched by no layer. -/
theorem freeBuffer_spec {l : Lip} {w b : Nat} (h : l.freeBuffer w = some b) :
    b ≤ 2 ∧ l.latched b = false ∧ b ≠ w := by
  have passes := List.find?_some h
  have listed := List.mem_of_find?_eq_some h
  simp only [Bool.and_eq_true, decide_eq_true_eq, Bool.not_eq_eq_eq_not, Bool.not_true] at passes
  simp only [List.mem_cons, List.not_mem_nil, or_false] at listed
  exact ⟨by omega, passes.2, passes.1⟩

theorem writerFree.rotate {l : Lip} (h : l.writerFree) : l.rotate.writerFree := by
  obtain ⟨off, unbound, writer⟩ := h
  unfold Lip.rotate
  split
  · exact ⟨off, unbound, writer⟩
  · next w hw =>
    split
    · next b hb =>
      obtain ⟨number, free, other⟩ := freeBuffer_spec hb
      refine ⟨off, fun hb => (nomatch hw.symm.trans (unbound hb).1), ?_⟩
      rintro _ ⟨⟩
      exact ⟨number, free, fun same => other (Option.some.inj same).symm⟩
    · exact ⟨off, unbound, writer⟩

/-- The port and the roles that a change of the binding leaves. -/
def rebound (l : Lip) (region : Option Nat) : Lip :=
  { (if l.bound.isSome then l.unbind else l).bind_ region with port := if region.isSome then .searching else .off }

theorem writerFree.rebound {l : Lip} {region : Option Nat} (h : l.writerFree) : (l.rebound region).writerFree := by
  cases region with
  | some id =>
    refine ⟨iff_of_false nofun nofun, nofun, ?_⟩
    rintro _ ⟨⟩
    exact ⟨by omega, latched_noLatches rfl 0, nofun⟩
  | none =>
    obtain ⟨off, unbound, writer⟩ := h
    unfold Lip.rebound
    split
    · exact ⟨iff_of_true rfl rfl, fun _ => ⟨rfl, rfl⟩, nofun⟩
    · next free =>
      have hb : l.bound = none := Option.not_isSome_iff_eq_none.mp free
      exact ⟨iff_of_true rfl hb, unbound, writer⟩

theorem writerFree_reset : Lip.reset.writerFree :=
  ⟨iff_of_true rfl rfl, fun _ => ⟨rfl, rfl⟩, nofun⟩

end Lip

namespace State

theorem writerFree_iff {s : State} : s.writerFree ↔ s.lip.writerFree := Iff.rfl

/-- What leaves the live input alone keeps its roles. -/
theorem writerFree.same {s t : State} (h : s.writerFree) (e : t.lip = s.lip) : t.writerFree := by
  rw [writerFree_iff, e]
  exact h

end State

theorem writerFree_foldl {β : Type} {f : State → β → State} {l : List β} {s : State} (h : s.writerFree)
    (hf : ∀ u b, u.writerFree → (f u b).writerFree) : (l.foldl f s).writerFree := by
  induction l generalizing s with
  | nil => exact h
  | cons b rest ih => exact ih (hf s b h)

/-! ## The live input's own work, R66 to R70 -/

section

variable {s : State}

/-- R71: the port moves between states other than OFF. -/
theorem enterLive_writerFree {old new : LiveState} {cause : LiveCause} (h : s.writerFree) (before : s.lip.port ≠ .off)
    (after : new ≠ .off) : (enterLive old new cause s).writerFree :=
  Lip.writerFree.port h before after

theorem completeInput_writerFree (h : s.writerFree) : (completeInput s).writerFree := by
  have rotated : ({ s.lip with
      complete := satAdd countTop s.lip.complete 1, capture := { s.lip.capture with phase := .over } } :
      Lip).rotate.writerFree := Lip.writerFree.rotate h
  unfold completeInput
  dsimp only
  split
  · next searching =>
    split
    · exact enterLive_writerFree (s := s.setLip _) rotated (by simp [searching]) nofun
    · exact rotated
  · exact rotated

theorem endInput_writerFree (h : s.writerFree) : (endInput s).writerFree := by
  unfold endInput
  split <;> exact h

theorem endInput_port (s : State) : (endInput s).lip.port = s.lip.port := by
  unfold endInput
  split <;> rfl

theorem completeIfWritten_writerFree (h : s.writerFree) : (completeIfWritten s).writerFree := by
  unfold completeIfWritten
  split
  · exact completeInput_writerFree h
  · exact h

theorem liveAtBoundary_writerFree (h : s.writerFree) : (liveAtBoundary s).writerFree := by
  unfold liveAtBoundary
  split
  · exact h
  · next on =>
    have counted : (s.setLip { s.lip with silence := satAdd 4 s.lip.silence 1 }).writerFree := h
    dsimp only
    split
    · refine enterLive_writerFree (s := State.setLip _ _) (endInput_writerFree counted) ?_ nofun
      simpa only [State.setLip_lip, endInput_port] using on
    · exact counted

theorem rebind_writerFree {region : Option Nat} (h : s.writerFree) : (rebind region s).writerFree :=
  Lip.writerFree.rebound h

/-! ## Latches, R73, R78, R85 -/

/-- R73: a layer latches the newest buffer, or none. -/
theorem newestFor_eq_some {source : Option Nat} {b : Nat} (h : s.newestFor source = some b) :
    s.lip.newest = some b := by
  unfold State.newestFor at h
  split at h
  · exact h
  · cases h

theorem latchWall_writerFree {w : Nat} {kind : LatchKind} {x : Wall} (h : s.writerFree) :
    (latchWall w kind x s).writerFree := by
  refine Lip.writerFree.latch h fun e he => ?_
  obtain ⟨i, old, here, rfl⟩ := mem_mapNum he
  dsimp only
  split
  · refine .inr fun b names => ?_
    simp only [Option.map_map, Option.map_eq_some_iff] at names
    obtain ⟨_, newest, rfl⟩ := names
    exact newestFor_eq_some newest
  · exact .inl here

theorem clearLatches_writerFree {w : Nat} (h : s.writerFree) : (clearLatches w s).writerFree := by
  refine Lip.writerFree.latch (shown := s.lip.shown) h fun e he => ?_
  obtain ⟨i, old, here, rfl⟩ := mem_mapNum he
  split
  · exact .inr nofun
  · exact .inl here

end

end Sys2Proof.Machine
end

section
/-! SUPPORT. What leaves the live input alone: one equation for each shared operation that a command calls, each from
its frame lemma, and one for each block that handles a request. -/

namespace Sys2Proof.Machine

variable (s : State)

/-! ## Shared operations -/

@[simp] theorem senseLines_lip (lines : Option (BitVec 8)) : (senseLines lines s).lip = s.lip := by
  cases lines <;> rfl

@[simp] theorem cphAtBoundary_lip (lines : BitVec 8) : (cphAtBoundary lines s).lip = s.lip :=
  cphAtBoundary_keeps State.lip (fun _ _ => rfl) (fun _ _ _ => rfl) lines s

@[simp] theorem cueAtBoundary_lip (rises : List Nat) : (cueAtBoundary rises s).lip = s.lip :=
  cueAtBoundary_keeps State.lip (fun _ _ => rfl) (fun _ _ _ => rfl) (fun _ _ _ => rfl) (fun _ _ _ => rfl)
    (fun _ _ => rfl) (fun _ _ _ => rfl) rises s

@[simp] theorem fbcAtBoundary_lip : (fbcAtBoundary s).lip = s.lip :=
  fbcAtBoundary_keeps State.lip (fun _ _ => rfl) (fun _ _ _ => rfl) s

@[simp] theorem completeZone_lip (id : Nat) : (completeZone id s).lip = s.lip :=
  completeZone_keeps State.lip (fun _ _ _ => rfl) (fun _ _ _ => rfl) (fun _ _ => rfl) id s

@[simp] theorem completeZones_lip : (completeZones s).lip = s.lip :=
  completeZones_keeps State.lip (fun _ _ _ => rfl) (fun _ _ _ => rfl) (fun _ _ => rfl) s

@[simp] theorem enterAcquiring_lip (origin : AcqOrigin) (started : Bool) (cause : RefCause) :
    (enterAcquiring origin started cause s).lip = s.lip :=
  enterAcquiring_keeps State.lip (fun _ _ => rfl) (fun _ _ _ => rfl) origin started cause s

@[simp] theorem enterHoldover_lip (cause : RefCause) : (enterHoldover cause s).lip = s.lip :=
  enterHoldover_keeps State.lip (fun _ _ => rfl) (fun _ _ _ => rfl) cause s

@[simp] theorem enterLocked_lip (time p : Nat) : (enterLocked time p s).lip = s.lip :=
  enterLocked_keeps State.lip (fun _ _ => rfl) (fun _ _ _ => rfl) time p s

@[simp] theorem endSlip_lip (slip : Int) (length : Nat) : (endSlip slip length s).lip = s.lip :=
  endSlip_keeps State.lip (fun _ _ => rfl) (fun _ _ _ => rfl) slip length s

@[simp] theorem endLengthened_lip (slip : Option Nat) : (endLengthened slip s).lip = s.lip :=
  endLengthened_keeps State.lip (fun _ _ => rfl) (fun _ _ _ => rfl) slip s

@[simp] theorem genAtBoundary_lip : (genAtBoundary s).lip = s.lip :=
  genAtBoundary_keeps State.lip (fun _ _ => rfl) (fun _ _ _ => rfl) s

@[simp] theorem warnStandard_lip (p : Nat) : (warnStandard p s).lip = s.lip :=
  warnStandard_keeps State.lip (fun _ _ => rfl) (fun _ _ _ => rfl) p s

@[simp] theorem onTimeStart_lip (time : Nat) : (onTimeStart time s).lip = s.lip :=
  onTimeStart_keeps State.lip (fun _ _ => rfl) (fun _ _ _ => rfl) time s

@[simp] theorem reenter_lip : (reenter s).lip = s.lip :=
  reenter_keeps State.lip (fun _ _ => rfl) (fun _ _ _ => rfl) s

@[simp] theorem setPort_lip (p : Port) (b : BusPort) : (setPort p b s).lip = s.lip :=
  setPort_keeps State.lip (fun _ _ => rfl) p b s

@[simp] theorem enterPort_lip (p : Port) (new : PortState) (cause : PortCause) :
    (enterPort p new cause s).lip = s.lip :=
  enterPort_keeps State.lip (fun _ _ => rfl) (fun _ _ _ => rfl) p new cause s

@[simp] theorem settlePort_lip (p : Port) : (settlePort p s).lip = s.lip :=
  settlePort_keeps State.lip (fun _ _ => rfl) (fun _ _ _ => rfl) p s

@[simp] theorem changeBus_lip (p : Port) (enable : Bool) (rate : Option Nat) :
    (changeBus p enable rate s).lip = s.lip :=
  changeBus_keeps State.lip (fun _ _ => rfl) (fun _ _ _ => rfl) p enable rate s

@[simp] theorem modFixture_lip (id : Nat) (f : Fixture → Fixture) : (modFixture id f s).lip = s.lip :=
  modFixture_keeps State.lip (fun _ _ => rfl) id f s

@[simp] theorem removeFixture_lip (id : Nat) : (removeFixture id s).lip = s.lip :=
  removeFixture_keeps State.lip (fun _ _ => rfl) id s

@[simp] theorem markDirty_lip (id : Nat) : (markDirty id s).lip = s.lip :=
  markDirty_keeps State.lip (fun _ _ => rfl) id s

@[simp] theorem compareSent_lip (id : Nat) (snapshot : List Nat) : (compareSent id snapshot s).lip = s.lip :=
  compareSent_keeps State.lip (fun _ _ => rfl) id snapshot s

@[simp] theorem fixtureLogic_lip (p : Port) (identifier : Nat) (payload : List Byte) :
    (fixtureLogic p identifier payload s).lip = s.lip :=
  fixtureLogic_keeps State.lip (fun _ _ => rfl) (fun _ _ _ => rfl) p identifier payload s

@[simp] theorem modWall_lip (w : Nat) (f : Wall → Wall) : (modWall w f s).lip = s.lip :=
  modWall_keeps State.lip (fun _ _ _ => rfl) w f s

@[simp] theorem composeRun_lip (w n : Nat) (x : Wall) (f : FrameParams) : (composeRun w n x f s).lip = s.lip :=
  composeRun_keeps State.lip (fun _ _ _ => rfl) w n x f s

@[simp] theorem sendSubFrame_lip (w : Nat) (x : Wall) (f : FrameParams) : (sendSubFrame w x f s).lip = s.lip :=
  sendSubFrame_keeps State.lip (fun _ _ _ => rfl) w x f s

@[simp] theorem postedUp_lip (id : Nat) : (postedUp id s).lip = s.lip :=
  postedUp_keeps State.lip (fun _ _ => rfl) id s

@[simp] theorem headLeaves_lip (id : Nat) : (headLeaves id s).lip = s.lip :=
  postedDown_keeps State.lip (fun _ _ => rfl) id _

@[simp] theorem foldl_airDown_lip {β : Type} (source : β → Option Nat) (l : List β) :
    (l.foldl (fun t b => airDown (source b) t) s).lip = s.lip :=
  foldl_keeps State.lip _ (fun t b => airDown_keeps State.lip (fun _ _ => rfl) (source b) t) l s

@[simp] theorem foldl_airUp_lip {β : Type} (source : β → Option Nat) (l : List β) :
    (l.foldl (fun t b => airUp (source b) t) s).lip = s.lip :=
  foldl_keeps State.lip _ (fun t b => airUp_keeps State.lip (fun _ _ => rfl) (source b) t) l s

@[simp] theorem releaseHeld_lip (held : Option Held) : (releaseHeld held s).lip = s.lip :=
  releaseHeld_keeps State.lip (fun _ _ => rfl) held s

/-! ## Answers -/

/-- The state that a block leaves with its answer. -/
def Answer.state : Answer → State
  | .reply _ _ t => t
  | .withhold _ t => t

theorem Answer.readsIf.state {a : Answer} {s : State} {ok : Prop} (h : a.readsIf s ok) : a.state = s := by
  obtain ⟨st, fields, rfl, -⟩ := h
  rfl

theorem checked_lip {checks : List (Bool × Status)} {s : State} {ok : Answer} (h : ok.state.lip = s.lip) :
    (checked checks s ok).state.lip = s.lip := by
  unfold checked
  split
  · rfl
  · exact h

theorem ite_lip {l : Lip} {c : Prop} [Decidable c] {a b : Answer} (ha : a.state.lip = l) (hb : b.state.lip = l) :
    (if c then a else b).state.lip = l := by
  split
  · exact ha
  · exact hb

/-- A request leaves the live input as its block does, or as it was. -/
theorem serve_lip {P : Lip → Prop} {cmd : Instr} {tag kind : Byte} {handle : State → Answer} {s : State}
    (own : P s.lip) (hh : ∀ u, u.lip = s.lip → P (handle u).state.lip) : P (serve cmd tag kind handle s).lip := by
  by_cases taken : ∃ rest, s.takes cmd rest
  · obtain ⟨rest, taken⟩ := taken
    have handled := hh (s.atHead cmd rest) rfl
    rw [serve_taken cmd tag kind handle rest s taken]
    cases ha : handle (s.atHead cmd rest) with
    | reply st fields t => rw [ha] at handled; exact handled
    | withhold hold t => rw [ha] at handled; exact handled
  · rw [serve_waits cmd tag kind handle s (not_exists.mp taken)]
    unfold joinQueue
    split <;> exact own

/-! ## The blocks that handle requests -/

theorem setReference_lip (q : SetReferenceReq) : (setReference q s).state.lip = s.lip := by
  unfold setReference
  split
  · rfl
  · rfl
  · dsimp only [Answer.state]
    split
    · exact reenter_lip _
    · rfl

theorem clearFlags_lip (q : ClearFlagsReq) : (clearFlags q s).state.lip = s.lip := checked_lip rfl

theorem setNoticeMask_lip (mask : Nat) : (setNoticeMask mask s).state.lip = s.lip := checked_lip rfl

theorem reset_lip (scope : Nat) : (reset scope s).state.lip = s.lip := by
  unfold Machine.reset
  split
  · rfl
  · split <;> rfl

theorem setCamera_lip (q : SetCameraReq) : (setCamera q s).state.lip = s.lip := by
  unfold setCamera
  split <;> rfl

theorem setIdlePhase_lip (phase : Nat) : (setIdlePhase phase s).state.lip = s.lip := checked_lip rfl

theorem setSlew_lip (limit : Nat) : (setSlew limit s).state.lip = s.lip := checked_lip rfl

theorem tally_lip (camera state : Nat) : (tally camera state s).state.lip = s.lip := checked_lip rfl

theorem defineRegion_lip (q : DefineRegionReq) : (defineRegion q s).state.lip = s.lip := by
  unfold defineRegion
  split
  · rfl
  · rfl
  · exact checked_lip rfl

theorem deleteRegion_lip (id : Nat) : (deleteRegion id s).state.lip = s.lip := by
  unfold deleteRegion
  split
  · rfl
  · rfl
  · split
    · rfl
    · split <;> rfl

theorem acceptEntry_lip (e : PostEntry) : (acceptEntry e s).lip = s.lip := postedUp_lip s e.region

theorem placeEntry_lip (failing : Option Status) (e : PostEntry) : (placeEntry failing e s).state.lip = s.lip := by
  unfold placeEntry
  split
  · rfl
  · split
    · exact acceptEntry_lip s e
    · rfl

theorem retryEntry_lip (tag kind : Byte) (failing : Option Status) (e : PostEntry) :
    (retryEntry tag kind failing e s).lip = s.lip := by
  unfold retryEntry
  split
  · rfl
  · exact acceptEntry_lip s e

theorem readContent_lip (q : ReadContentReq) : (readContent q s).state.lip = s.lip := by
  unfold readContent
  split
  · rfl
  · rfl
  · split
    · rfl
    · split <;> rfl

theorem defineWall_lip (q : DefineWallReq) : (defineWall q s).state.lip = s.lip :=
  checked_lip (createWall_keeps State.lip (fun _ _ _ => rfl) (fun _ _ _ => rfl) (fun _ _ _ => rfl) (fun _ _ => rfl)
    (fun _ _ _ => rfl) q s)

theorem setLayer_lip (q : SetLayerReq) : (setLayer q s).state.lip = s.lip :=
  checked_lip (changeLayer_keeps State.lip (fun _ _ => rfl) (fun _ _ _ => rfl) _ _ _ s)

theorem setWallMode_lip (q : SetWallModeReq) : (setWallMode q s).state.lip = s.lip := by
  unfold setWallMode
  split <;> rfl

theorem setTile_lip (q : SetTileReq) : (setTile q s).state.lip = s.lip := by
  unfold setTile
  split
  · rfl
  · rfl
  · rfl
  · exact placeTile_keeps State.lip (fun _ _ _ => rfl) (fun _ _ => rfl) (fun _ _ _ => rfl) _ _ s

theorem removeTile_lip (id : Nat) : (removeTile id s).state.lip = s.lip := by
  unfold removeTile
  split
  · rfl
  · rfl
  · exact takeTile_keeps State.lip (fun _ _ _ => rfl) (fun _ _ => rfl) (fun _ _ _ => rfl) id s

theorem setCorrection_lip (q : SetCorrectionReq) : (setCorrection q s).state.lip = s.lip := by
  unfold setCorrection
  split <;> rfl

theorem defineZone_lip (q : DefineZoneReq) : (defineZone q s).state.lip = s.lip := by
  unfold defineZone
  split
  · rfl
  · rfl
  · split
    · rfl
    · split <;> rfl

theorem storeCue_lip (q : StoreCueReq) : (storeCue q s).state.lip = s.lip := by
  unfold storeCue
  split
  · rfl
  · exact checked_lip (replaceCue_keeps State.lip (fun _ _ => rfl) (fun _ _ => rfl) _ _ s)

theorem deleteCue_lip (n : Nat) : (deleteCue n s).state.lip = s.lip := by
  unfold deleteCue
  split
  · rfl
  · rfl
  · exact removeCue_keeps State.lip (fun _ _ => rfl) (fun _ _ => rfl) n _ s

theorem standby_lip (n : Nat) : (standby n s).state.lip = s.lip := checked_lip rfl

theorem go_lip : (go s).state.lip = s.lip := by
  unfold go
  split <;> rfl

theorem goCue_lip (n : Nat) : (goCue n s).state.lip = s.lip := checked_lip rfl

theorem cancelGo_lip : (cancelGo s).state.lip = s.lip := by
  unfold cancelGo
  split <;> rfl

theorem holdCue_lip : (holdCue s).state.lip = s.lip := checked_lip rfl

theorem releaseCue_lip : (releaseCue s).state.lip = s.lip := checked_lip rfl

theorem stepCue_lip (n : Nat) : (stepCue n s).state.lip = s.lip := checked_lip rfl

theorem setCurve_lip (curve : Nat) (points : List Nat) : (setCurve curve points s).state.lip = s.lip := by
  unfold setCurve
  split <;> rfl

theorem fade_lip (q : FadeReq) : (fade q s).state.lip = s.lip := checked_lip rfl

theorem setChannel_lip (q : SetChannelReq) : (setChannel q s).state.lip = s.lip := by
  unfold setChannel
  split
  · rfl
  · exact foldl_keeps State.lip _ (fun t i =>
      configureChannel_keeps State.lip (fun _ _ _ => rfl) (fun _ _ => rfl) _ _ q (q.first + i) t) _ s
  · rfl

theorem setBus_lip (q : SetBusReq) : (setBus q s).state.lip = s.lip := by
  unfold setBus
  split
  · rfl
  · exact ite_lip rfl (changeBus_lip s _ _ _)
  · rfl

theorem setFilter_lip (q : SetFilterReq) : (setFilter q s).state.lip = s.lip := by
  unfold setFilter
  split
  · rfl
  · split
    · rfl
    · exact setPort_lip s _ _
  · rfl

theorem defineFixture_lip (q : DefineFixtureReq) : (defineFixture q s).state.lip = s.lip := by
  unfold defineFixture
  split
  · rfl
  · rfl
  · refine checked_lip ?_
    simp only [Answer.state, markDirty_lip, State.setFbc_lip, removeFixture_lip]

theorem deleteFixture_lip (id : Nat) : (deleteFixture id s).state.lip = s.lip := by
  unfold deleteFixture
  split
  · rfl
  · rfl
  · exact removeFixture_lip s id

theorem setDimmer_lip (q : SetDimmerReq) : (setDimmer q s).state.lip = s.lip := by
  unfold setDimmer
  dsimp only
  split <;> rfl

end Sys2Proof.Machine
end

section
/-! PROOF. The writer buffer stays free of the layers' latches (O57). -/

namespace Sys2Proof.Machine

/-! ## Operations that latch a buffer or release it -/

section

variable {s : State}

theorem settleMode_writerFree {w : Nat} (h : s.writerFree) : (settleMode w s).writerFree := by
  unfold settleMode
  split
  · exact h
  · split
    · exact latchWall_writerFree (h.same (by simp only [foldl_airUp_lip, modWall_lip]))
    · split
      · exact latchWall_writerFree (h.same (by simp only [releaseHeld_lip, modWall_lip]))
      · dsimp only
        split
        · exact h.same (modWall_lip s w _)
        · exact latchWall_writerFree (h.same (modWall_lip s w _))

/-- Of what the engine does at a boundary, the modes of the walls alone reach the live input. -/
theorem wseAtBoundary_lip (s : State) :
    (wseAtBoundary s).lip = ((List.range 4).foldl (fun t w => settleMode w t) s).lip := by
  unfold wseAtBoundary
  dsimp only
  rw [beginSending_keeps State.lip (fun _ _ _ => rfl),
    foldl_keeps State.lip _ fun t c => judgeChain_keeps State.lip (fun _ _ _ => rfl) (fun _ _ _ => rfl) c t,
    foldl_keeps State.lip _ fun t w => settleShedding_keeps State.lip (fun _ _ _ => rfl) (fun _ _ _ => rfl) w t,
    settleFrames_keeps State.lip (fun _ _ _ => rfl)]

theorem wseAtBoundary_writerFree (h : s.writerFree) : (wseAtBoundary s).writerFree :=
  (writerFree_foldl (f := fun t w => settleMode w t) h fun _ _ hu => settleMode_writerFree hu).same
    (wseAtBoundary_lip s)

/-- R78: with a wall, its latches go. -/
theorem removeWall_writerFree {w : Nat} {x : Wall} (h : s.writerFree) : (removeWall w x s).writerFree := by
  have released : (releaseHeld x.held (x.layers.toList.foldl (fun t l => airDown l.source t) s)).writerFree :=
    h.same (by simp only [releaseHeld_lip, foldl_airDown_lip])
  refine (clearLatches_writerFree (w := w) released).same ?_
  unfold removeWall
  dsimp only
  rw [judge_keeps State.lip (fun _ _ _ => rfl) (fun _ _ _ => rfl), State.setWse_lip,
    removeWallTiles_keeps State.lip (fun _ _ _ => rfl) (fun _ _ => rfl) (fun _ _ _ => rfl),
    discardManual_keeps State.lip (fun _ _ _ => rfl),
    removeWallFades_keeps State.lip (fun _ _ _ => rfl) (fun _ _ _ => rfl)]

/-! ## The boundary, R5 -/

/-- The state that the Live Input Port acts on at a boundary: the camera phases and the cues have been worked on. -/
def State.beforeLive (lines : BitVec 8) (s : State) : State :=
  cueAtBoundary (tallyRises s.cph (cphAtBoundary lines s).cph) (cphAtBoundary lines s)

@[simp] theorem State.beforeLive_lip (lines : BitVec 8) (s : State) : (s.beforeLive lines).lip = s.lip := by
  rw [State.beforeLive, cueAtBoundary_lip, cphAtBoundary_lip]

/-- The fixture buses and the dimmers leave the live input alone. -/
theorem blocksAtBoundary_lip (lines : BitVec 8) (cut : Bool) (s : State) :
    (blocksAtBoundary lines cut s).lip = (wseAtBoundary (liveAtBoundary (s.beforeLive lines))).lip := by
  unfold blocksAtBoundary State.beforeLive
  dsimp only
  rw [douAtBoundary_keeps State.lip (fun _ _ => rfl), fbcAtBoundary_lip]

theorem blocksAtBoundary_writerFree {lines : BitVec 8} {cut : Bool} (h : s.writerFree) :
    (blocksAtBoundary lines cut s).writerFree :=
  (wseAtBoundary_writerFree (liveAtBoundary_writerFree (h.same (s.beforeLive_lip lines)))).same
    (blocksAtBoundary_lip lines cut s)

theorem takeBoundary_writerFree {time : Nat} {lines : BitVec 8} {cut : Bool} {gen : State → State}
    (h : s.writerFree) (hgen : ∀ u, (gen u).lip = u.lip) : (takeBoundary time lines cut gen s).writerFree :=
  blocksAtBoundary_writerFree (h.same (by rw [hgen, State.setRtu_lip, completeZones_lip]))

theorem tickBoundary_writerFree {lines : BitVec 8} (h : s.writerFree) : (tickBoundary lines s).writerFree :=
  takeBoundary_writerFree h fun u => by rw [endLengthened_lip, genAtBoundary_lip]

theorem boundaryWhen_writerFree {due : Bool} {lines : BitVec 8} (h : s.writerFree) :
    (boundaryWhen due lines s).writerFree := by
  unfold boundaryWhen
  split
  · exact tickBoundary_writerFree h
  · exact h

theorem lateBoundary_writerFree {lines : BitVec 8} (h : s.writerFree) : (lateBoundary lines s).writerFree :=
  takeBoundary_writerFree h fun u => by rw [endLengthened_lip, enterHoldover_lip]

theorem lock_writerFree {time p : Nat} {lines : BitVec 8} (h : s.writerFree) : (lock time p lines s).writerFree := by
  unfold lock
  dsimp only
  split
  · exact h.same (by simp only [endSlip_lip, enterLocked_lip, State.setRtu_lip])
  · split
    · exact takeBoundary_writerFree h fun u => by rw [endSlip_lip, enterLocked_lip]
    · exact h.same (by simp only [enterLocked_lip, State.setRtu_lip])

theorem acquire_writerFree {time p : Nat} {lines : BitVec 8} (h : s.writerFree) :
    (acquire time p lines s).writerFree := by
  have warned (r : Rtu) : (warnStandard p (s.setRtu r)).writerFree := h.same (warnStandard_lip _ p)
  unfold acquire
  split
  · dsimp only
    split
    · exact lock_writerFree (warned _)
    · exact warned _
  · exact h

theorem referenceStart_writerFree {time : Nat} {lines : BitVec 8} (h : s.writerFree) :
    (referenceStart time lines s).writerFree := by
  have measured : (s.setRtu (s.rtu.measure time)).writerFree := h
  unfold referenceStart
  dsimp only
  split
  · split
    · exact measured.same (enterAcquiring_lip _ _ _ _)
    · exact measured
  · split
    · exact measured.same (enterAcquiring_lip _ _ _ _)
    · exact measured
  · exact acquire_writerFree measured
  · split
    · exact measured
    · exact takeBoundary_writerFree measured fun u => by rw [endLengthened_lip, onTimeStart_lip]

end

/-! ## What a command leaves -/

/-- What holds of the live input after a command that has a next state. -/
def LipAfter (P : Lip → Prop) (r : Result) : Prop := ∀ t, r = .next t → P t.lip

namespace LipAfter

variable {P : Lip → Prop} {s t : State}

theorem next (h : P t.lip) : LipAfter P (.next t) := by
  rintro _ ⟨⟩
  exact h

theorem fault {r : Fault} : LipAfter P (.fault r) := by
  rintro _ ⟨⟩

/-- A command that leaves the live input alone. -/
theorem kept {r : Result} (own : P s.lip) (h : LipAfter (· = s.lip) r) : LipAfter P r := by
  intro t ht
  rw [h t ht]
  exact own

/-- A request whose block leaves the live input alone. -/
theorem served {cmd : Instr} {tag kind : Byte} {handle : State → Answer} (own : P s.lip)
    (hh : ∀ u, (handle u).state.lip = u.lip) : LipAfter P (.next (serve cmd tag kind handle s)) :=
  .kept own (.next (serve_lip (P := (· = s.lip)) rfl fun u hu => (hh u).trans hu))

/-- A request whose block only reads. -/
theorem read {cmd : Instr} {tag kind : Byte} {handle : State → Answer} (own : P s.lip)
    (hh : ∀ u, ∃ ok, (handle u).readsIf u ok) : LipAfter P (.next (serve cmd tag kind handle s)) :=
  .served own fun u => by
    obtain ⟨ok, reads⟩ := hh u
    rw [reads.state]

end LipAfter

/-! ## Commands that leave the live input alone -/

section

variable (s : State)

theorem execRankSized_lip (o : RankOutcome) : LipAfter (· = s.lip) (execRankSized o s) := by
  have fault (i : Nat) (r : Rank) (u : State) : (rankFault i r u).lip = u.lip := by
    unfold rankFault
    split <;> rfl
  unfold execRankSized
  split
  · dsimp only
    split
    · exact .next (fault _ _ _)
    · exact .next (fault _ _ _)
  · exact .next rfl

theorem receiveChar_lip (c : RxChar) : (receiveChar s c).lip = s.lip := by
  have hunt : (huntChar c s).lip = s.lip := huntChar_keeps State.lip (fun _ _ => rfl) c s
  have error : (linkError s).lip = s.lip := linkError_keeps State.lip (fun _ _ => rfl) s
  unfold receiveChar
  split
  · exact hunt
  · split
    · exact (huntChar_keeps State.lip (fun _ _ => rfl) c _).trans error
    · split
      · exact error
      · exact frameByte_keeps State.lip (fun _ _ => rfl) _ s

theorem execControlLinkFrame_lip (time : Nat) (lines : BitVec 8) (chars : List LineChar) :
    LipAfter (· = s.lip) (execControlLinkFrame time lines chars s) :=
  .next (foldl_keeps State.lip _ receiveChar_lip _ _)

theorem execTransmitFrame_lip : LipAfter (· = s.lip) (execTransmitFrame s) := by
  unfold execTransmitFrame
  split <;> exact .next rfl

theorem execLinkReset_lip : LipAfter (· = s.lip) (execLinkReset s) := by
  unfold execLinkReset
  split <;> exact .next rfl

theorem execLatchInstant_lip (w k : Nat) : LipAfter (· = s.lip) (execLatchInstant w k s) := by
  have composed (x : Wall) (f : FrameParams) (tick : Nat) :
      (composeRun w x.area x f (reach w k (moveTick tick s))).lip = s.lip := by
    rw [composeRun_lip, reach, modWall_lip, moveTick, State.setRtu_lip]
  unfold execLatchInstant
  split
  · exact .next rfl
  · split
    · exact .next rfl
    · dsimp only
      split
      · split
        · split
          · exact .next (composed _ _ _)
          · exact .next ((sendSubFrame_lip _ _ _ _).trans (composed _ _ _))
        · exact .fault
      · exact .next rfl

theorem execChainEcho_lip (chain word : Nat) : LipAfter (· = s.lip) (execChainEcho chain word s) := by
  unfold execChainEcho
  split <;> exact .next rfl

theorem execBurstGrant_lip (asks : Asks) : LipAfter (· = s.lip) (execBurstGrant asks s) := by
  unfold execBurstGrant
  split
  · split
    · exact .next rfl
    · split
      · exact .next (headLeaves_lip s _)
      · split
        · exact .next (headLeaves_lip _ _)
        · split
          · refine .next ?_
            unfold writeBurst
            dsimp only
            split
            · exact headLeaves_lip _ _
            · rfl
          · exact .fault
  · exact .next rfl

theorem execWaitingRequestAccept_lip : LipAfter (· = s.lip) (execWaitingRequestAccept s) := by
  unfold execWaitingRequestAccept
  split
  · split
    · exact .next (retryEntry_lip s _ _ _ _)
    · exact .next (retryEntry_lip s _ _ _ _)
    · exact .next rfl
  · exact .next rfl

theorem execRegionRemoval_lip : LipAfter (· = s.lip) (execRegionRemoval s) := by
  unfold execRegionRemoval
  split
  · split
    · split <;> exact .next rfl
    · exact .next rfl
  · exact .next rfl

theorem execReadProceeds_lip : LipAfter (· = s.lip) (execReadProceeds s) := by
  unfold execReadProceeds
  split
  · split
    · split <;> exact .next rfl
    · exact .next rfl
  · exact .next rfl

theorem execContentReadGrant_lip (asks : Asks) : LipAfter (· = s.lip) (execContentReadGrant asks s) := by
  unfold execContentReadGrant
  split
  · split
    · split
      · exact .next rfl
      · split
        · exact .next rfl
        · exact .fault
    · exact .next rfl
  · exact .next rfl

theorem execUnknownKind_lip (tag kind : Byte) : LipAfter (· = s.lip) (execUnknownKind tag kind s) := by
  unfold execUnknownKind
  split
  · exact .next rfl
  · exact .served rfl fun u => rfl

theorem execPortJoined_lip (p : Port) : LipAfter (· = s.lip) (execPortJoined p s) := by
  unfold execPortJoined
  split
  · exact .next (by rw [enterPort_lip, setPort_lip])
  · exact .next rfl

theorem execQuietPeriod_lip (p : Port) : LipAfter (· = s.lip) (execQuietPeriod p s) := by
  unfold execQuietPeriod
  split
  · exact .next (setPort_lip s p _)
  · exact .next rfl

theorem execPortRecovered_lip (p : Port) : LipAfter (· = s.lip) (execPortRecovered p s) := by
  unfold execPortRecovered
  split
  · exact .next (by simp only [setPort_lip, enterPort_lip])
  · exact .next rfl

theorem execSendStart_lip (p : Port) (idleBits : Nat) : LipAfter (· = s.lip) (execSendStart p idleBits s) := by
  unfold execSendStart
  dsimp only
  split
  · split
    · exact .next rfl
    · split
      · exact .next rfl
      · exact .next (setPort_lip s p _)
  · exact .next rfl

theorem execLostArbitration_lip (p : Port) : LipAfter (· = s.lip) (execLostArbitration p s) := by
  unfold execLostArbitration
  dsimp only
  split
  · exact .next rfl
  · exact .next (setPort_lip s p _)

theorem execSendSuccess_lip (p : Port) : LipAfter (· = s.lip) (execSendSuccess p s) := by
  unfold execSendSuccess
  dsimp only
  split
  · exact .next rfl
  · split
    · exact .next (by simp only [compareSent_lip, modFixture_lip, setPort_lip, settlePort_lip])
    · exact .next (by simp only [setPort_lip, settlePort_lip])

theorem execValidReception_lip (p : Port) (r : BusReception) : LipAfter (· = s.lip) (execValidReception p r s) := by
  unfold execValidReception
  dsimp only
  split
  · split
    · exact .next rfl
    · split
      · exact .next (setPort_lip s p _)
      · split
        · exact .next (by simp only [fixtureLogic_lip, settlePort_lip, setPort_lip])
        · exact .next (by simp only [settlePort_lip, setPort_lip])
  · exact .next rfl

theorem execBusError_lip (p : Port) (e : BusFault) : LipAfter (· = s.lip) (execBusError p e s) := by
  unfold execBusError
  dsimp only
  split
  · split
    · split
      · exact .next (setPort_lip s p _)
      · exact .next rfl
    · exact .next (by simp only [settlePort_lip, setPort_lip])
  · exact .next rfl

theorem execDimmerPeriodStart_lip (o j : Nat) : LipAfter (· = s.lip) (execDimmerPeriodStart o j s) := by
  unfold execDimmerPeriodStart
  dsimp only
  split
  · exact .next rfl
  · split <;> exact .next rfl

theorem execDimmerPulseEnd_lip (o : Nat) : LipAfter (· = s.lip) (execDimmerPulseEnd o s) := by
  unfold execDimmerPulseEnd
  dsimp only
  split <;> exact .next rfl

theorem scanFetch_lip (w n : Nat) : LipAfter (· = s.lip) (scanFetch w n s) := by
  unfold scanFetch
  split
  · exact .next rfl
  · split
    · exact .next rfl
    · split
      · exact .next (composeRun_lip s _ _ _ _)
      · exact .fault

end

/-! ## Commands that change the live input -/

section

variable {s : State}

theorem execFullReset_writerFree {r : ResetIn} (h : s.writerFree) :
    LipAfter Lip.writerFree (execFullReset r s) := by
  unfold execFullReset
  split
  · exact .next Lip.writerFree_reset
  · exact .next h

theorem cutSending_lip (r : ResetIn) (s t : State) : (cutSending r s t).lip = t.lip := by
  unfold cutSending
  split
  · split <;> rfl
  · rfl

theorem execResetPin_writerFree {r : ResetIn} : LipAfter Lip.writerFree (execResetPin r s) :=
  .next (by rw [cutSending_lip]; exact Lip.writerFree_reset)

theorem execFramePulse_writerFree {p : FramePulse} (h : s.writerFree) :
    LipAfter Lip.writerFree (execFramePulse p s) := by
  have before : (if s.rtu.gen = .locked ∧ s.rtu.lateTime < p.time then lateBoundary p.tally s else s).writerFree := by
    split
    · exact lateBoundary_writerFree h
    · exact h
  unfold execFramePulse
  dsimp only
  generalize (if s.rtu.gen = .locked ∧ s.rtu.lateTime < p.time then lateBoundary p.tally s else s) = u at before ⊢
  split
  · exact .next (referenceStart_writerFree (before.same rfl))
  · exact .next before

theorem execFrameBoundary_writerFree {lines : BitVec 8} (h : s.writerFree) :
    LipAfter Lip.writerFree (execFrameBoundary lines s) := by
  unfold execFrameBoundary
  split
  · exact .next (tickBoundary_writerFree h)
  · exact .next h

theorem execLateLimit_writerFree {lines : BitVec 8} (h : s.writerFree) :
    LipAfter Lip.writerFree (execLateLimit lines s) := by
  unfold execLateLimit
  split
  · exact .next (lateBoundary_writerFree h)
  · exact .next h

/-- R70: a frame start in LOST enters SEARCHING. -/
theorem execInputFrameStart_writerFree (h : s.writerFree) : LipAfter Lip.writerFree (execInputFrameStart s) := by
  have ended := endInput_writerFree h
  unfold execInputFrameStart
  dsimp only
  split
  · exact .next h
  · next on =>
    split
    · exact .next (enterLive_writerFree (s := State.setLip _ _) ended (mt (endInput_port s).symm.trans on) nofun)
    · exact .next ended

theorem execLineStrobe_writerFree (h : s.writerFree) : LipAfter Lip.writerFree (execLineStrobe s) := by
  unfold execLineStrobe
  split
  · exact .next h
  · split <;> exact .next h
  · exact .next h

theorem execInputPixel_writerFree {r g b : BitVec 10} (h : s.writerFree) :
    LipAfter Lip.writerFree (execInputPixel r g b s) := by
  unfold execInputPixel
  split <;> exact .next h

theorem liveCapture_writerFree {n : Nat} (h : s.writerFree) : LipAfter Lip.writerFree (liveCapture n s) := by
  unfold liveCapture
  split
  · exact .next h
  · next r _ =>
    split
    · exact .next (completeIfWritten_writerFree (s := writeCapture n r s) h)
    · exact .fault

theorem execInputFrameComplete_writerFree (h : s.writerFree) :
    LipAfter Lip.writerFree (execInputFrameComplete s) := by
  unfold execInputFrameComplete
  dsimp only
  split
  · exact liveCapture_writerFree h
  · exact .next h

theorem execDramAccessGrant_writerFree {asks : Asks} (h : s.writerFree) :
    LipAfter Lip.writerFree (execDramAccessGrant asks s) := by
  unfold execDramAccessGrant
  split
  · exact .kept h (scanFetch_lip s _ _)
  · exact liveCapture_writerFree h
  · exact .next h

theorem setLiveInput_writerFree {region : Option Nat} (h : s.writerFree) :
    (setLiveInput region s).state.writerFree := by
  unfold setLiveInput
  dsimp only
  split
  · exact h
  · exact h
  · split
    · exact h
    · split
      · exact h
      · exact rebind_writerFree h

theorem deleteWall_writerFree {w : Nat} (h : s.writerFree) : (deleteWall w s).state.writerFree := by
  unfold deleteWall
  split
  · exact h
  · exact h
  · exact removeWall_writerFree h

/-! ## The step -/

theorem exec_writerFree (i : Instr) (h : s.writerFree) : LipAfter Lip.writerFree (exec i s) := by
  cases i with
  | powerOn => exact .next Lip.writerFree_reset
  | resetPin => exact execResetPin_writerFree
  | fullReset => exact execFullReset_writerFree h
  | framePulse => exact execFramePulse_writerFree h
  | lateLimit => exact execLateLimit_writerFree h
  | frameBoundary => exact execFrameBoundary_writerFree h
  | acquisitionAbandoned | holdoverExpired | waitEntryDue | followExpiry | fadeEnd | feedLost | keepAliveExpiry
  | silenceLimit => exact .next (boundaryWhen_writerFree h)
  | inputFrameStart => exact execInputFrameStart_writerFree h
  | lineStrobe => exact execLineStrobe_writerFree h
  | inputPixel => exact execInputPixel_writerFree h
  | inputFrameComplete => exact execInputFrameComplete_writerFree h
  | dramAccessGrant => exact execDramAccessGrant_writerFree h
  | setLiveInput => exact .next (serve_lip h fun u hu => setLiveInput_writerFree (s := u) (h.same hu))
  | deleteWall => exact .next (serve_lip h fun u hu => deleteWall_writerFree (s := u) (h.same hu))
  | rankSized o => exact .kept h (execRankSized_lip s o)
  | controlLinkFrame time lines chars => exact .kept h (execControlLinkFrame_lip s time lines chars)
  | unknownKind tag kind => exact .kept h (execUnknownKind_lip s tag kind)
  | transmitFrame => exact .kept h (execTransmitFrame_lip s)
  | linkReset => exact .kept h (execLinkReset_lip s)
  | linePulse => exact .next h
  | latchInstant w k => exact .kept h (execLatchInstant_lip s w k)
  | chainEcho chain word => exact .kept h (execChainEcho_lip s chain word)
  | zoneComplete z => exact .kept h (.next (completeZone_lip s z))
  | burstGrant asks => exact .kept h (execBurstGrant_lip s asks)
  | waitingRequestAccept => exact .kept h (execWaitingRequestAccept_lip s)
  | regionRemoval => exact .kept h (execRegionRemoval_lip s)
  | readProceeds => exact .kept h (execReadProceeds_lip s)
  | contentReadGrant asks => exact .kept h (execContentReadGrant_lip s asks)
  | portJoined p => exact .kept h (execPortJoined_lip s p)
  | portRecovered p => exact .kept h (execPortRecovered_lip s p)
  | quietPeriod p => exact .kept h (execQuietPeriod_lip s p)
  | sendStart p idleBits => exact .kept h (execSendStart_lip s p idleBits)
  | lostArbitration p => exact .kept h (execLostArbitration_lip s p)
  | sendSuccess p => exact .kept h (execSendSuccess_lip s p)
  | validReception p r => exact .kept h (execValidReception_lip s p r)
  | busError p e => exact .kept h (execBusError_lip s p e)
  | dimmerPeriodStart o j => exact .kept h (execDimmerPeriodStart_lip s o j)
  | dimmerPulseEnd o => exact .kept h (execDimmerPulseEnd_lip s o)
  | identify | readStatus | readTiming | readMemory | readPosting | readLive | readCueState =>
    exact .served h fun u => rfl
  | readPhase q => exact .served (h.same (senseLines_lip s q.lines)) fun u => rfl
  | readRegion _ id => exact .read h fun u => ⟨_, readRegion_reads u id⟩
  | readWall _ w => exact .read h fun u => ⟨_, readWall_reads u w⟩
  | readZone _ z => exact .read h fun u => ⟨_, readZone_reads u z⟩
  | readCue _ n search => exact .read h fun u => ⟨_, readCue_answers u n search⟩
  | readLevels _ q => exact .read h fun u => ⟨_, readLevels_reads u q⟩
  | readBus _ port => exact .read h fun u => ⟨_, readBus_reads u port⟩
  | readFixture _ id search => exact .read h fun u => ⟨_, readFixture_answers u id search⟩
  | readDimmer _ output => exact .read h fun u => ⟨_, readDimmer_reads u output⟩
  | clearFlags _ q => exact .served h fun u => clearFlags_lip u q
  | setNoticeMask _ mask => exact .served h fun u => setNoticeMask_lip u mask
  | reset _ scope => exact .served h fun u => reset_lip u scope
  | setReference _ q => exact .served h fun u => setReference_lip u q
  | setCamera _ q => exact .served h fun u => setCamera_lip u q
  | setIdlePhase _ phase => exact .served h fun u => setIdlePhase_lip u phase
  | setSlew _ limit => exact .served h fun u => setSlew_lip u limit
  | tally _ camera state => exact .served h fun u => tally_lip u camera state
  | defineRegion _ q => exact .served h fun u => defineRegion_lip u q
  | deleteRegion _ id => exact .served h fun u => deleteRegion_lip u id
  | setShowLock => exact .served h fun u => rfl
  | writeContent | fillRegion => exact .served h fun u => placeEntry_lip u _ _
  | readContent _ q => exact .served h fun u => readContent_lip u q
  | defineWall _ q => exact .served h fun u => defineWall_lip u q
  | setLayer _ q => exact .served h fun u => setLayer_lip u q
  | setWallMode _ q => exact .served h fun u => setWallMode_lip u q
  | setTile _ q => exact .served h fun u => setTile_lip u q
  | removeTile _ id => exact .served h fun u => removeTile_lip u id
  | setCorrection _ q => exact .served h fun u => setCorrection_lip u q
  | defineZone _ q => exact .served h fun u => defineZone_lip u q
  | storeCue _ q => exact .served h fun u => storeCue_lip u q
  | deleteCue _ n => exact .served h fun u => deleteCue_lip u n
  | standby _ n => exact .served h fun u => standby_lip u n
  | go => exact .served h fun u => go_lip u
  | goCue _ n => exact .served h fun u => goCue_lip u n
  | cancelGo => exact .served h fun u => cancelGo_lip u
  | hold => exact .served h fun u => holdCue_lip u
  | release => exact .served h fun u => releaseCue_lip u
  | stepFrames _ n => exact .served h fun u => stepCue_lip u n
  | setCurve _ curve points => exact .served h fun u => setCurve_lip u curve points
  | fade _ q => exact .served h fun u => fade_lip u q
  | setChannel _ q => exact .served h fun u => setChannel_lip u q
  | setBus _ q => exact .served h fun u => setBus_lip u q
  | setFilter _ q => exact .served h fun u => setFilter_lip u q
  | defineFixture _ q => exact .served h fun u => defineFixture_lip u q
  | deleteFixture _ id => exact .served h fun u => deleteFixture_lip u id
  | setDimmer _ q => exact .served h fun u => setDimmer_lip u q

theorem step_writerFree (h : s.writerFree) : LipAfter Lip.writerFree (step s) := by
  unfold step
  split
  · exact exec_writerFree _ h
  · unfold idle
    split
    · exact .next h
    · exact exec_writerFree _ h
    · exact .next h

end

/-- Settles O57: the buffer rule gives the writer a free buffer that is not the newest, layers latch the newest alone,
and every other command leaves the roles as they are. -/
theorem stepKeepsWriterFree : Obligations.StepKeepsWriterFree :=
  fun _ t h ht => step_writerFree h t ht

end Sys2Proof.Machine
end

section
/-! PROOF. The feed is lost at the fourth silent boundary (O33). -/

namespace Sys2Proof.Machine

/-! ## What the scan engine changes of the live input at a boundary, R73 -/

/-- The Live Input Port but for its latches and the SHOWN mark. -/
def Lip.unlatched (l : Lip) : Lip := { l with latch := noLatches, shown := false }

theorem latchWall_unlatched (w : Nat) (kind : LatchKind) (x : Wall) (s : State) :
    (latchWall w kind x s).lip.unlatched = s.lip.unlatched := rfl

theorem settleMode_unlatched (w : Nat) (s : State) : (settleMode w s).lip.unlatched = s.lip.unlatched := by
  unfold settleMode
  split
  · rfl
  · split
    · rw [latchWall_unlatched, foldl_airUp_lip, modWall_lip]
    · split
      · rw [latchWall_unlatched, releaseHeld_lip, modWall_lip]
      · dsimp only
        split
        · rw [modWall_lip]
        · rw [latchWall_unlatched, modWall_lip]

theorem wseAtBoundary_unlatched (s : State) : (wseAtBoundary s).lip.unlatched = s.lip.unlatched := by
  have modes : ((List.range 4).foldl (fun t w => settleMode w t) s).lip.unlatched = s.lip.unlatched :=
    foldl_keeps (fun t => t.lip.unlatched) _ (fun t w => settleMode_unlatched w t) _ s
  rw [wseAtBoundary_lip, modes]

/-! ## The state that the Live Input Port acts on, R5 -/

theorem abandonAcquisition_raises (s : State) : s.Raises (abandonAcquisition s) := by
  unfold abandonAcquisition
  split <;> exact .one _ rfl

theorem genAtBoundary_raises (s : State) : s.Raises (genAtBoundary s) := by
  unfold genAtBoundary
  split
  · exact .same rfl
  · split
    · exact .one _ rfl
    · exact .same rfl
  · dsimp only
    split
    · exact .before rfl (abandonAcquisition_raises _)
    · exact .same rfl
  · exact .refl s

/-- The blocks before the Live Input Port leave the generator as it is, and raise notices. -/
theorem State.beforeLive_rtu (lines : BitVec 8) (s : State) : (s.beforeLive lines).rtu = s.rtu := by
  rw [State.beforeLive, cueAtBoundary_keeps State.rtu (fun _ _ => rfl) (fun _ _ _ => rfl) (fun _ _ _ => rfl)
    (fun _ _ _ => rfl) (fun _ _ => rfl) (fun _ _ _ => rfl), cphAtBoundary_keeps State.rtu (fun _ _ => rfl)
    (fun _ _ _ => rfl)]

theorem State.beforeLive_raises (lines : BitVec 8) (s : State) : s.Raises (s.beforeLive lines) :=
  (cphAtBoundary_raises lines s).trans (cueAtBoundary_raises _ _)

/-- The blocks after it raise notices, too. -/
theorem blocksAtBoundary_raises_live (lines : BitVec 8) (cut : Bool) (s : State) :
    (liveAtBoundary (s.beforeLive lines)).Raises (blocksAtBoundary lines cut s) :=
  (wseAtBoundary_raises _).trans
    ((fbcAtBoundary_raises _).after (douAtBoundary_keeps State.lkd (fun _ _ => rfl) cut _))

theorem Rtu.counter_of_frameFields {r q : Rtu} (h : r.frameFields = q.frameFields) : r.counter = q.counter :=
  congrArg Prod.fst h

/-- The state that the blocks act on at a boundary that the tick count brings: the frame has begun and the generator has
done its work. -/
def State.turned (s : State) : State := endLengthened s.rtu.slip (genAtBoundary (s.begun s.rtu.expectedEnd))

theorem tickBoundary_eq (lines : BitVec 8) (s : State) :
    tickBoundary lines s = blocksAtBoundary lines s.rtu.slip.isSome s.turned := rfl

theorem State.turned_lip (s : State) : s.turned.lip = s.lip := by
  rw [State.turned, endLengthened_lip, genAtBoundary_lip, State.begun, State.setRtu_lip, completeZones_lip]

theorem State.turned_counter (s : State) : s.turned.rtu.counter = s.rtu.counter + 1 := by
  rw [State.turned, endLengthened_rtu]
  refine (Rtu.counter_of_frameFields (genAtBoundary_frameFields _)).trans ?_
  rw [State.begun_rtu]
  rfl

theorem State.turned_raises (s : State) : s.Raises s.turned :=
  .before (s.begun_lkd s.rtu.expectedEnd) ((genAtBoundary_raises _).trans ⟨_, endLengthened_lkd s.rtu.slip _⟩)

/-! ## FEED_LOST, R70 -/

theorem raise_lkd (k : NoticeKind) (d : List Field) (s : State) :
    (raise k d s).lkd = s.lkd.raise ⟨k, s.rtu.counter, d⟩ := rfl

/-- R68, R70: what of the Live Input Port the loss of the feed leaves: a frame in progress is short, and the pixels that
waited are dropped (log 40). -/
def Lip.feedLost (l : Lip) : Lip :=
  let abandoned := if l.capture.phase.inProgress then l.findShort else l
  { l with
    port := .lost, silence := 4, queue := [], earlier := 0
    short := abandoned.short, consecutive := abandoned.consecutive, capture := abandoned.capture }

theorem liveAtBoundary_loses {s : State} (running : s.lip.port = .running) (silent : s.lip.silence = 3) :
    liveAtBoundary s = raise .liveState
      [.u2 LiveState.running.code, .u2 LiveState.lost.code, opt2 s.lip.bound, .u2 LiveCause.feedLost.code,
        .u4 s.lip.feedLost.complete, .u4 s.lip.feedLost.short, .u4 s.lip.feedLost.skipped, .u4 s.lip.feedLost.dropped]
      (s.setLip s.lip.feedLost) := by
  unfold liveAtBoundary endInput Lip.feedLost
  simp only [running, silent, and_self, if_true, State.setLip_lip]
  cases s.lip.capture.phase.inProgress <;> rfl

theorem exec_feedLost {lines : BitVec 8} {s : State} (ticks : s.rtu.gen ≠ .locked) (running : s.lip.port = .running)
    (silent : s.lip.silence = 3) : exec (.feedLost lines) s = .next (tickBoundary lines s) := by
  show execFeedLost lines s = _
  rw [execFeedLost, boundaryWhen_due lines s _ ticks (by simp only [running, silent, decide_true, Bool.and_self])]

/-- Settles O33: the Live Input Port's work within the boundary, between the notices of the other blocks. -/
theorem feedLostAtFourthBoundary : Obligations.FeedLostAtFourthBoundary := by
  intro lines s ticks running silent _
  have counted : (tickBoundary lines s).rtu.counter = s.rtu.counter + 1 :=
    Rtu.counter_of_frameFields (tickBoundary_frameFields lines s)
  have kept := tickBoundary_boundaryKeeps lines s
  obtain ⟨before, hbefore⟩ := s.turned_raises.trans (s.turned.beforeLive_raises lines)
  obtain ⟨later, hlater⟩ := blocksAtBoundary_raises_live lines s.rtu.slip.isSome s.turned
  have left := congrArg Lip.unlatched (blocksAtBoundary_lip lines s.rtu.slip.isSome s.turned)
  have same_lip : (s.turned.beforeLive lines).lip = s.lip := (s.turned.beforeLive_lip lines).trans s.turned_lip
  rw [wseAtBoundary_unlatched] at left
  rw [liveAtBoundary_loses (same_lip ▸ running) (same_lip ▸ silent), same_lip] at left hlater
  rw [raise_lkd, State.setLip_lkd, State.setLip_rtu, State.beforeLive_rtu, s.turned_counter, hbefore] at hlater
  rw [← tickBoundary_eq] at left hlater
  refine ⟨tickBoundary lines s, exec_feedLost ticks running silent, ?_⟩
  generalize tickBoundary lines s = t at *
  have same {α : Type} (p : Lip → α) : p t.lip.unlatched = p s.lip.feedLost.unlatched := congrArg p left
  refine ⟨same Lip.port, same Lip.silence, same Lip.queue, same Lip.progress, ⟨before, later, ?_⟩, same Lip.newest,
    same Lip.writer, same Lip.bound, counted, kept⟩
  have complete : t.lip.complete = s.lip.feedLost.complete := same Lip.complete
  have short : t.lip.short = s.lip.feedLost.short := same Lip.short
  have skipped : t.lip.skipped = s.lip.feedLost.skipped := same Lip.skipped
  have dropped : t.lip.dropped = s.lip.feedLost.dropped := same Lip.dropped
  rw [hlater, complete, short, skipped, dropped]

end Sys2Proof.Machine
end

section
/-! PROOF. Frame starts, line strobes and pixels of the live input (O32). -/

namespace Sys2Proof.Machine

variable {s : State}

/-! ## Frame starts, R67 and R70 -/

theorem CapturePhase.inProgress_eq_false {p : CapturePhase} (h : p = .idle ∨ p = .over) : p.inProgress = false := by
  rcases h with rfl | rfl <;> rfl

theorem endInput_not_inProgress (h : s.lip.capture.phase.inProgress = false) : endInput s = s := by
  simp only [endInput, h, Bool.false_eq_true, if_false]

theorem exec_inputFrameStart_off (off : s.lip.port = .off) : exec .inputFrameStart s = .next s := if_pos off

/-- A frame start that finds no frame in progress. -/
theorem exec_inputFrameStart_on (on : s.lip.port ≠ .off) (ended : s.lip.capture.phase.inProgress = false) :
    exec .inputFrameStart s = .next
      (if s.lip.port = .lost then
        enterLive .lost .searching .feedSeen (s.setLip { s.lip.beginInput with consecutive := 0 })
      else s.setLip s.lip.beginInput) := by
  show execInputFrameStart s = _
  unfold execInputFrameStart
  rw [if_neg on]
  dsimp only
  rw [endInput_not_inProgress ended]
  exact (apply_ite Host.Outcome.next _ _ _).symm

/-! ## Line strobes, R67 and R68 -/

section

variable {r : Region} (bound : s.boundRegion = some r)

include bound

theorem exec_lineStrobe_started (started : s.lip.capture.phase = .started) :
    exec .lineStrobe s = .next (s.setLip { s.lip with capture := ⟨.line, 0, 0⟩ }) := by
  show execLineStrobe s = _
  simp only [execLineStrobe, started, bound]

theorem exec_lineStrobe_line (line : s.lip.capture.phase = .line) :
    exec .lineStrobe s = .next (s.setLip
      (if s.lip.capture.pixel < r.width then s.lip.findShort
       else { s.lip with capture := ⟨.line, s.lip.capture.line + 1, 0⟩ })) := by
  show execLineStrobe s = _
  simp only [execLineStrobe, line, bound]
  split <;> rfl

end

/-! ## Pixels, R67 -/

/-- R is the highest component of a pixel word, under two bits 0 (log 7). -/
theorem wordOf_append (r g b : BitVec 10) : wordOf ⟨r.toNat, g.toNat, b.toNat⟩ = 0#2 ++ r ++ g ++ b := by
  have below (a : Nat) (c : BitVec 10) : a <<< 10 ||| c.toNat = a * 1024 + c.toNat := by
    rw [← Nat.shiftLeft_add_eq_or_of_lt c.isLt, Nat.shiftLeft_eq]
  have hr := r.isLt
  have hg := g.isLt
  have hb := b.isLt
  apply BitVec.eq_of_toNat_eq
  simp only [wordOf, BitVec.toNat_append, BitVec.toNat_ofNat, below]
  omega

theorem exec_inputPixel_line {reg : Region} (r g b : BitVec 10) (bound : s.boundRegion = some reg)
    (line : s.lip.capture.phase = .line) :
    let c := s.lip.capture
    exec (.inputPixel r g b) s = .next (s.setLip { s.lip with
      queue := if c.pixel < reg.width ∧ c.line < reg.height then
          s.lip.queue ++ [⟨s.lip.writer.getD 0, c.line * reg.width + c.pixel, 0#2 ++ r ++ g ++ b⟩]
        else s.lip.queue
      capture := ⟨if c.line + 1 = reg.height ∧ c.pixel + 1 = reg.width then .received else .line, c.line,
        c.pixel + 1⟩ }) := by
  show execInputPixel r g b s = _
  simp only [execInputPixel, line, bound, wordOf_append]

/-- Settles O32: each event by the port's state and by where capture stands. -/
theorem captureEvents : Obligations.CaptureEvents := by
  intro r g b s
  refine ⟨exec_inputFrameStart_off, fun port ended => ?_, fun lost ended => ?_, fun reg bound => ?_⟩
  · have on : s.lip.port ≠ .off := by rcases port with h | h <;> simp only [h] <;> nofun
    have found : s.lip.port ≠ .lost := by rcases port with h | h <;> simp only [h] <;> nofun
    rw [exec_inputFrameStart_on on (CapturePhase.inProgress_eq_false ended), if_neg found]
    rfl
  · have on : s.lip.port ≠ .off := by simp only [lost]; nofun
    refine ⟨_, exec_inputFrameStart_on on (CapturePhase.inProgress_eq_false ended), ?_⟩
    rw [if_pos lost]
    exact ⟨rfl, rfl⟩
  · refine ⟨exec_lineStrobe_started bound, fun line full => ?_, fun line short => ?_, exec_inputPixel_line r g b bound⟩
    · rw [exec_lineStrobe_line bound line, if_neg (not_lt.mpr full)]
    · rw [exec_lineStrobe_line bound line, if_pos short]
      rfl

end Sys2Proof.Machine
end

section
/-! PROOF. SET LIVE INPUT (O30). -/

namespace Sys2Proof.Machine

/-! ## The change of the binding, R66 -/

theorem rebind_eq (region : Option Nat) (s : State) :
    rebind region s = raise .liveState
      [.u2 s.lip.port.code, .u2 (s.lip.rebound region).port.code, opt2 (s.lip.rebound region).bound,
        .u2 LiveCause.settings.code, .u4 (s.lip.rebound region).complete, .u4 (s.lip.rebound region).short,
        .u4 (s.lip.rebound region).skipped, .u4 (s.lip.rebound region).dropped] (s.setLip (s.lip.rebound region)) :=
  rfl

theorem rebind_atHead (region : Option Nat) (s : State) (cmd : Instr) (rest : List QueuedRequest) :
    rebind region (s.atHead cmd rest) = (rebind region s).atHead cmd rest :=
  raise_atHead (s.setLip (s.lip.rebound region)) cmd rest _ _

/-- R66: what every change of the binding leaves. -/
theorem Lip.rebound_spec {l : Lip} {region : Option Nat} (changes : region ≠ l.bound) :
    let m := l.rebound region
    m.bound = region ∧ m.port = (if region.isSome = true then .searching else .off) ∧
      m.writer = (if region.isSome = true then some 0 else none) ∧ m.newest = none ∧ m.latch = noLatches ∧
      m.capture = Capture.idle_ ∧ m.progress = none ∧ m.queue = [] := by
  cases region with
  | some id => exact ⟨rfl, rfl, rfl, rfl, rfl, rfl, rfl, rfl⟩
  | none =>
    have unbound : l.bound.isSome = true := Option.isSome_iff_ne_none.mpr changes.symm
    dsimp only [Lip.rebound]
    rw [if_pos unbound]
    exact ⟨rfl, rfl, rfl, rfl, rfl, rfl, rfl, rfl⟩

/-- R66: a region newly bound starts with all counts at 0, and a region released leaves the frame counts. -/
theorem Lip.rebound_counts (l : Lip) (region : Option Nat) :
    let m := l.rebound region
    (region ≠ none → m.consecutive = 0 ∧ m.silence = 0 ∧ m.complete = 0 ∧ m.short = 0 ∧ m.skipped = 0 ∧
      m.dropped = 0 ∧ m.shown = false) ∧
    (region = none → m.complete = l.complete ∧ m.short = l.short ∧ m.skipped = l.skipped ∧ m.dropped = l.dropped) := by
  cases region with
  | some id => exact ⟨fun _ => ⟨rfl, rfl, rfl, rfl, rfl, rfl, rfl⟩, nofun⟩
  | none =>
    refine ⟨fun some => absurd rfl some, fun _ => ?_⟩
    unfold Lip.rebound
    split <;> exact ⟨rfl, rfl, rfl, rfl⟩

/-! ## The request, R65 -/

section

variable {region : Option Nat} {s : State}

/-- R65: what SET LIVE INPUT may name: nothing, or a LIVE region that is bound already or on air nowhere. -/
def State.bindable (s : State) (region : Option Nat) : Prop :=
  ∀ id, region = some id → id ≤ 63 ∧ ∃ r, s.region id = some r ∧ r.kind = .live ∧ (s.lip.bound = some id ∨ r.air = 0)

theorem liveFailing_bindable (h : s.bindable region) : liveFailing region s = none := by
  cases region with
  | none => rfl
  | some id =>
    obtain ⟨-, r, found, live, free⟩ := h id rfl
    have available : (decide (s.lip.bound ≠ some id) && decide (0 < r.air)) = false := by
      rcases free with bound | quiet
      · simp only [bound, ne_eq, not_true_eq_false, decide_false, Bool.false_and]
      · simp only [quiet, lt_self_iff_false, decide_false, Bool.and_false]
    simp only [liveFailing, found, live, available, firstFailing, reduceCtorEq, decide_false, Bool.false_eq_true,
      if_false]

/-- The checks passed, the request changes nothing, meets a region still on air, or changes the binding. -/
theorem setLiveInput_bindable (unlocked : s.fsc.showLock = false) (h : s.bindable region) :
    setLiveInput region s =
      if region = s.lip.bound then .reply .ok [opt1 s.lip.bound, .u1 s.lip.port.code] s
      else if 0 < s.airOf s.lip.bound then refuse .inUse s
      else .reply .ok [opt1 (rebind region s).lip.bound, .u1 (rebind region s).lip.port.code] (rebind region s) := by
  have number : decide (63 < region.getD 0) = false := by
    cases region with
    | none => rfl
    | some id => exact decide_eq_false (Nat.not_lt.mpr (h id rfl).1)
  simp only [setLiveInput, liveFailing_bindable h, unlocked, number, firstFailing, Bool.false_eq_true, if_false]

end

/-- Settles O30: the request by what it names against what is bound, and the change of the binding field by field. -/
theorem liveInputBound : Obligations.LiveInputBound := by
  intro tag region rest s taken unlocked bindable
  have answer := setLiveInput_bindable (s := s.atHead (.setLiveInput tag region) rest) unlocked bindable
  refine ⟨fun same => ?_, fun changes quiet => ?_, fun changes onAir => ?_⟩
  · exact congrArg _ (serve_ok _ _ _ _ _ _ _ _ taken (answer.trans (if_pos same)) rfl)
  · have passes : ¬0 < s.airOf s.lip.bound := by omega
    rw [rebind_atHead] at answer
    have served := serve_atHead s _ rest tag 0x29 (setLiveInput region) (rebind region s) _ _ taken
      (answer.trans ((if_neg changes).trans (if_neg passes)))
    obtain ⟨bound, port, writer, newest, latch, capture, progress, queue⟩ := Lip.rebound_spec changes
    obtain ⟨started, kept⟩ := s.lip.rebound_counts region
    refine ⟨rebind region s, congrArg _ (served.trans ?_), bound, port, writer, newest, fun e he => ?_,
      congrArg Capture.phase capture, progress, queue, ?_, started, kept, rfl⟩
    · show (rebind region s).repliedFrom _ _ _ _ [opt1 (s.lip.rebound region).bound, _] _ = _
      rw [bound]
      rfl
    · exact mem_noLatches (latch ▸ he)
    · rw [rebind_eq, raise_lkd, bound]
      rfl
  · exact congrArg _ (serve_refused _ _ _ _ _ _ _ taken (answer.trans ((if_neg changes).trans (if_pos onAir))))

end Sys2Proof.Machine
end

section
/-! SUPPORT. Levels of a wall's targets and fades taken off them, R131, R140: what is written, and what is left as it
was. -/

namespace Sys2Proof.Machine

/-! ## Nothing but levels, fades and the cues that hear of them -/

/-- `t` is `s` but for levels, running fades, active cues, the follow timer and the Link Dispatcher. -/
def State.onlyFades (s t : State) : Prop :=
  ∃ targets fades active follow lkd, t = { s with
    cue := { s.cue with active := active, follow := follow }
    lvp := { s.lvp with targets := targets, fades := fades }
    lkd := lkd }

namespace State.onlyFades

variable {s t u : State}

theorem refl (s : State) : s.onlyFades s := ⟨_, _, _, _, _, rfl⟩

theorem trans (h : s.onlyFades t) (h' : t.onlyFades u) : s.onlyFades u := by
  obtain ⟨_, _, _, _, _, rfl⟩ := h
  obtain ⟨targets, fades, active, follow, lkd, rfl⟩ := h'
  exact ⟨targets, fades, active, follow, lkd, rfl⟩

theorem foldl {β : Type} {f : State → β → State} (l : List β) (h : ∀ s, ∀ b ∈ l, State.onlyFades s (f s b))
    (s : State) : s.onlyFades (l.foldl f s) := by
  induction l generalizing s with
  | nil => exact refl s
  | cons b rest ih =>
    exact (h s b List.mem_cons_self).trans (ih (fun s b mem => h s b (List.mem_cons_of_mem _ mem)) (f s b))

theorem channels (h : s.onlyFades t) : t.lvp.channels = s.lvp.channels := by
  obtain ⟨_, _, _, _, _, rfl⟩ := h
  rfl

theorem curves (h : s.onlyFades t) : t.lvp.curves = s.lvp.curves := by
  obtain ⟨_, _, _, _, _, rfl⟩ := h
  rfl

theorem manual (h : s.onlyFades t) : t.lvp.manual = s.lvp.manual := by
  obtain ⟨_, _, _, _, _, rfl⟩ := h
  rfl

theorem cues (h : s.onlyFades t) : t.cue.cues = s.cue.cues := by
  obtain ⟨_, _, _, _, _, rfl⟩ := h
  rfl

theorem waits (h : s.onlyFades t) : t.cue.waits = s.cue.waits := by
  obtain ⟨_, _, _, _, _, rfl⟩ := h
  rfl

theorem wse (h : s.onlyFades t) : t.wse = s.wse := by
  obtain ⟨_, _, _, _, _, rfl⟩ := h
  rfl

theorem eq (h : s.onlyFades t) : t = { s with cue := t.cue, lvp := t.lvp, lkd := t.lkd } := by
  obtain ⟨_, _, _, _, _, rfl⟩ := h
  rfl

end State.onlyFades

variable {s : State}

theorem CueEngine.startFollow_onlyFollow (c : CueEngine) : ∃ follow, c.startFollow = { c with follow := follow } := by
  unfold CueEngine.startFollow
  split <;> exact ⟨_, rfl⟩

theorem completeCue_onlyFades (a : Active) : s.onlyFades (completeCue a s) := by
  simp only [completeCue]
  split
  · obtain ⟨follow, started⟩ := CueEngine.startFollow_onlyFollow
      { s.cue with active := s.cue.active.filter (fun x => decide (x.cue ≠ a.cue)) }
    exact ⟨_, _, _, follow, _, congrArg (State.setCue _) started⟩
  · exact ⟨_, _, _, _, _, rfl⟩

theorem judge_onlyFades (firing : Option Nat) : s.onlyFades (judge firing s) :=
  .foldl _ (fun _ a _ => completeCue_onlyFades a) s

theorem removeFade_onlyFades (target : Nat) : s.onlyFades (removeFade target s) := by
  unfold removeFade
  split
  · exact .refl s
  · rename_i f _
    cases f.owner with
    | manual => exact ⟨_, _, _, _, _, rfl⟩
    | cue n => exact ⟨_, _, _, _, _, rfl⟩

theorem removeWallFades_onlyFades (w : Nat) : s.onlyFades (removeWallFades w s) :=
  .foldl _ (fun _ target _ => removeFade_onlyFades target) s

/-- The level of a target that is neither a channel nor the lighting master feeds no output. -/
theorem setLevel_onlyFades {target : Nat} (above : 768 ≤ target) (other : target ≠ masterTarget) (v : Nat) :
    s.onlyFades (setLevel target v s) := by
  simp only [setLevel, Nat.not_lt.mpr above, other, if_false]
  split
  · exact .refl s
  · exact ⟨_, _, _, _, _, rfl⟩

/-! ## Levels and fades of several targets -/

theorem level_setLevel_inTable {target : Nat} (inTable : target ≤ 788) (v n : Nat) :
    (setLevel target v s).level n = if n = target then v else s.level n := by
  unfold State.level
  rw [setLevel_targets]
  by_cases already : s.level target = v
  · rw [if_pos already]
    split
    · rename_i same
      exact same ▸ already
    · rfl
  · rw [if_neg already]
    exact at_put _ _ _ _ _ (Nat.lt_succ_of_le inTable)

theorem level_foldl_setLevel (targets : List Nat) (inTable : ∀ k ∈ targets, k ≤ 788) (v n : Nat) (s : State) :
    (targets.foldl (fun t target => setLevel target v t) s).level n = if n ∈ targets then v else s.level n := by
  induction targets generalizing s with
  | nil => exact (if_neg List.not_mem_nil).symm
  | cons k rest ih =>
    rw [List.foldl_cons, ih (fun j mem => inTable j (List.mem_cons_of_mem _ mem)),
      level_setLevel_inTable (inTable k List.mem_cons_self)]
    by_cases later : n ∈ rest
    · rw [if_pos later, if_pos (List.mem_cons_of_mem _ later)]
    · rw [if_neg later]
      exact if_congr (by simp only [List.mem_cons, later, or_false]) rfl rfl

theorem find_foldl_removeFade (targets : List Nat) (n : Nat) (s : State) :
    (targets.foldl (fun t target => removeFade target t) s).lvp.fades.find n =
      if n ∈ targets then none else s.lvp.fades.find n := by
  induction targets generalizing s with
  | nil => exact (if_neg List.not_mem_nil).symm
  | cons k rest ih =>
    rw [List.foldl_cons, ih, find_removeFade]
    by_cases later : n ∈ rest
    · rw [if_pos later, if_pos (List.mem_cons_of_mem _ later)]
    · rw [if_neg later]
      exact if_congr (by simp only [List.mem_cons, later, or_false]) rfl rfl

theorem mem_wallTargets {w n : Nat} (mem : n ∈ wallTargets w) : 768 ≤ n ∧ (w ≤ 3 → n < 788) := by
  simp only [wallTargets, brightnessTarget, opacityTarget, List.mem_cons, List.not_mem_nil, or_false] at mem
  omega

end Sys2Proof.Machine
end

section
/-! PROOF. DEFINE WALL (O34). -/

namespace Sys2Proof.Machine

/-! ## The new wall, R76 -/

section CreateWall

variable {q : DefineWallReq} (wall : q.wall ≤ 3) (s : State)
include wall

theorem createWall_onlyFades :
    (s.setWse { s.wse with walls := s.wse.walls.insert q.wall (newWall q) }).onlyFades (createWall q s) := by
  refine ((removeWallFades_onlyFades q.wall).trans (.foldl _ (fun t k mem => ?_) _)).trans (judge_onlyFades none)
  obtain ⟨above, below⟩ := mem_wallTargets mem
  exact setLevel_onlyFades above (Nat.ne_of_lt (below wall)) _

theorem createWall_level (n : Nat) :
    (createWall q s).level n = if n ∈ wallTargets q.wall then 65535 else s.level n := by
  have inTable (k : Nat) (mem : k ∈ wallTargets q.wall) : k ≤ 788 := ((mem_wallTargets mem).2 wall).le
  unfold createWall
  rw [judge_keeps (fun t => t.level n) (fun _ _ _ => rfl) (fun _ _ _ => rfl), level_foldl_setLevel _ inTable]
  refine if_congr Iff.rfl rfl ?_
  exact foldl_keeps (fun t => t.level n) _ (fun t k => level_removeFade k n t) _ _

omit wall in
theorem createWall_fades (n : Nat) :
    (createWall q s).lvp.fades.find n = if n ∈ wallTargets q.wall then none else s.lvp.fades.find n := by
  unfold createWall
  rw [judge_keeps (fun t => t.lvp) (fun _ _ _ => rfl) (fun _ _ _ => rfl),
    foldl_keeps (fun t => t.lvp.fades) _ (fun t k => setLevel_fades k 65535 t)]
  exact find_foldl_removeFade _ n _

theorem createWall_wall (w : Nat) :
    (createWall q s).wall w = if w = q.wall then some (newWall q) else s.wall w := by
  unfold State.wall
  rw [(createWall_onlyFades wall s).wse]
  exact Table.find_insert q.wall w (newWall q) s.wse.walls

end CreateWall

theorem newWall_layers {q : DefineWallReq} {l : Layer} (mem : l ∈ (newWall q).layers.toList) : l = Layer.none_ :=
  List.eq_of_mem_replicate (Vector.toList_replicate ▸ mem)

/-! ## The request -/

theorem wallOutOfRange_eq_false {q : DefineWallReq} (wall : q.wall ≤ 3) (width : 16 ≤ q.width) (width' : q.width ≤ 7680)
    (height : 16 ≤ q.height) (height' : q.height ≤ 4320) (refresh : 1 ≤ q.refresh) (refresh' : q.refresh ≤ 8)
    (background : rgbInRange q.background = true) : wallOutOfRange q = false := by
  simp only [wallOutOfRange, Nat.not_lt.mpr wall, Nat.not_lt.mpr width, Nat.not_lt.mpr width', Nat.not_lt.mpr height,
    Nat.not_lt.mpr height', Nat.not_lt.mpr refresh, Nat.not_lt.mpr refresh', background, decide_false, Bool.not_true,
    Bool.or_false]

theorem defineWall_ok {q : DefineWallReq} {s : State} (unlocked : s.fsc.showLock = false)
    (inRange : wallOutOfRange q = false) (free : s.wall q.wall = none)
    (fits : s.areas + q.width * q.height ≤ 8388608) :
    defineWall q s = .reply .ok ((createWall q s).wallFields q.wall (newWall q)) (createWall q s) := by
  have undefined : s.wse.walls.has q.wall = false := Option.isSome_eq_false_iff.mpr (Option.isNone_iff_eq_none.mpr free)
  have withinLimit : decide (areaLimit < s.areas + q.width * q.height) = false := decide_eq_false (Nat.not_lt.mpr fits)
  simp only [defineWall, checked, unlocked, inRange, undefined, withinLimit, firstFailing, Bool.false_eq_true, if_false]

/-- Settles O34: the checks pass, and the new wall's record, levels and fades are read off one by one. -/
theorem wallDefined : Obligations.WallDefined := by
  unfold Obligations.WallDefined
  intro tag q rest s taken unlocked wall width width' height height' refresh refresh' r g b free fits
  have background : rgbInRange q.background = true := by
    simp only [rgbInRange, r, g, b, decide_true, Bool.and_true]
  have inRange := wallOutOfRange_eq_false wall width width' height height' refresh refresh' background
  have only := createWall_onlyFades wall (s.atHead (.defineWall tag q) rest)
  have level := createWall_level wall (s.atHead (.defineWall tag q) rest)
  have fades := createWall_fades (q := q) (s.atHead (.defineWall tag q) rest)
  have walls := createWall_wall wall (s.atHead (.defineWall tag q) rest)
  refine ⟨_, _, congrArg _ (serve_replyFrom _ _ _ _ _ _ _ _ _ taken
    (defineWall_ok (s := s.atHead _ rest) unlocked inRange free fits)), ⟨newWall q, ?_, ?_⟩, fun w other => ?_,
    fun n mem => ?_, fun n others => ?_, only.channels, only.curves, only.manual, only.cues, only.waits, ?_⟩
  · exact (walls q.wall).trans (if_pos rfl)
  · exact ⟨rfl, rfl, rfl, rfl, rfl, rfl, rfl, rfl, rfl, rfl, rfl, rfl, fun l => newWall_layers⟩
  · exact (walls w).trans (if_neg other)
  · exact ⟨(level n).trans (if_pos mem), (fades n).trans (if_pos mem)⟩
  · exact ⟨(level n).trans (if_neg others), (fades n).trans (if_neg others)⟩
  · rw [only.wse]
    exact only.eq

end Sys2Proof.Machine
end

section
/-! SUPPORT. Which operations on chains write nothing but the chains and what is ready on the Control Link, and what
becomes of each chain when the tile map changes, R90. -/

namespace Sys2Proof.Machine

/-! ## Nothing but chains and notices -/

/-- `t` is `s` but for its chains and its Link Dispatcher. -/
def State.onlyChains (s t : State) : Prop :=
  ∃ chains lkd, t = { s with wse := { s.wse with chains := chains }, lkd := lkd }

namespace State.onlyChains

variable {s t u : State}

theorem refl (s : State) : s.onlyChains s := ⟨_, _, rfl⟩

theorem trans (h : s.onlyChains t) (h' : t.onlyChains u) : s.onlyChains u := by
  obtain ⟨_, _, rfl⟩ := h
  obtain ⟨chains, lkd, rfl⟩ := h'
  exact ⟨chains, lkd, rfl⟩

theorem foldl {β : Type} {f : State → β → State} (h : ∀ s b, State.onlyChains s (f s b)) (l : List β) (s : State) :
    s.onlyChains (l.foldl f s) := by
  induction l generalizing s with
  | nil => exact refl s
  | cons b rest ih => exact (h s b).trans (ih (f s b))

theorem eq (h : s.onlyChains t) : t = { s with wse := { s.wse with chains := t.wse.chains }, lkd := t.lkd } := by
  obtain ⟨_, _, rfl⟩ := h
  rfl

theorem tiles (h : s.onlyChains t) : t.wse.tiles = s.wse.tiles := by
  obtain ⟨_, _, rfl⟩ := h
  rfl

end State.onlyChains

variable {s : State}

theorem putChain_onlyChains (c : Nat) (x : Chain) : s.onlyChains (putChain c x s) := ⟨_, _, rfl⟩

theorem enterChain_onlyChains (c : Nat) (new : ChainState) (wall : Option Nat) :
    s.onlyChains (enterChain c new wall s) := by
  simp only [enterChain]
  split <;> exact ⟨_, _, rfl⟩

theorem chainTilesChanged_onlyChains (before : Table Tile) (c : Nat) :
    s.onlyChains (chainTilesChanged before c s) := by
  unfold chainTilesChanged
  split
  · exact .refl s
  · exact enterChain_onlyChains c _ _
  · exact enterChain_onlyChains c _ _
  · split
    · exact .refl s
    · exact putChain_onlyChains c _

theorem tilesChanged_onlyChains (before : Table Tile) : s.onlyChains (tilesChanged before s) :=
  .foldl (fun _ c => chainTilesChanged_onlyChains before c) _ s

/-! ## A chain after its tiles changed, R90 -/

/-- What becomes of chain `c` when the tile map `before` turns into `after`. -/
def Chain.retiled (before after : Table Tile) (c : Nat) (x : Chain) : Chain :=
  match tileCount c before, tileCount c after with
  | 0, 0 => x
  | 0, _ + 1 => { x with state := .ok, misses := 0, echoes := 0 }
  | _ + 1, 0 => { x with state := .idle, misses := 0, echoes := 0, whole := false }
  | _ + 1, _ + 1 => if chainTiles c before = chainTiles c after then x else { x with misses := 0, echoes := 0 }

theorem chain_chainTilesChanged (before : Table Tile) (c d : Nat) (number : d < 8) :
    (chainTilesChanged before c s).chain d =
      if d = c then (s.chain c).retiled before s.wse.tiles c else s.chain d := by
  have untouched : s.chain d = if d = c then s.chain c else s.chain d := by
    split
    · rename_i same
      rw [same]
    · rfl
  unfold chainTilesChanged Chain.retiled
  cases tileCount c before with
  | zero =>
    cases tileCount c s.wse.tiles with
    | zero => exact untouched
    | succ => exact chain_enterChain c d .ok _ s number
  | succ =>
    cases tileCount c s.wse.tiles with
    | zero => exact chain_enterChain c d .idle _ s number
    | succ =>
      by_cases kept : chainTiles c before = chainTiles c s.wse.tiles
      · simpa only [kept, if_true] using untouched
      · simpa only [kept, if_false] using chain_putChain c d _ s number

theorem chain_foldl_chainTilesChanged (before : Table Tile) (n d : Nat) (number : d < 8) :
    ((List.range n).foldl (fun t c => chainTilesChanged before c t) s).chain d =
      if d < n then (s.chain d).retiled before s.wse.tiles d else s.chain d := by
  induction n with
  | zero => rfl
  | succ n ih =>
    have tiles := (State.onlyChains.foldl (fun _ c => chainTilesChanged_onlyChains before c) (List.range n) s).tiles
    rw [List.range_succ, List.foldl_append, List.foldl_cons, List.foldl_nil,
      chain_chainTilesChanged _ _ _ number, tiles]
    by_cases last : d = n
    · subst last
      rw [if_pos rfl, ih, if_neg (Nat.lt_irrefl d), if_pos d.lt_succ_self]
    · rw [if_neg last, ih]
      exact if_congr (by omega) rfl rfl

theorem chain_tilesChanged (before : Table Tile) (d : Nat) (number : d < 8) :
    (tilesChanged before s).chain d = (s.chain d).retiled before s.wse.tiles d :=
  (chain_foldl_chainTilesChanged before 8 d number).trans (if_pos number)

/-- R90: the chains follow the tile map, whatever else of the state was written with it. -/
theorem tilesChanged_follow {t : State} (h : t.wse.chains = s.wse.chains) :
    s.chainsFollow (tilesChanged s.wse.tiles t) := by
  intro c number
  have chain : t.chain c = s.chain c := congrArg (at_ · c Chain.reset) h
  dsimp only
  rw [chain_tilesChanged _ c number, (tilesChanged_onlyChains _).tiles, chain]
  unfold Chain.retiled
  split
  · rename_i none none'
    simp [none, none']
  · rename_i n none some
    simp [none, some]
  · rename_i n some none
    simp [none, some]
  · rename_i n m some some'
    split <;> rename_i kept <;> simp [some, some', kept]

end Sys2Proof.Machine
end

section
/-! PROOF. SET TILE and REMOVE TILE (O39). -/

namespace Sys2Proof.Machine

variable {rest : List QueuedRequest} {s : State}

/-- The tile map replaced while a request stands at the head of the queue: the chains follow, and nothing else
changes. -/
theorem tilesChanged_atHead (tiles : Table Tile) (cmd : Instr) (rest : List QueuedRequest) (s : State) :
    let t := tilesChanged s.wse.tiles ((s.atHead cmd rest).setWse { s.wse with tiles := tiles })
    t.wse.tiles = tiles ∧ s.chainsFollow t ∧
      t = { s with wse := { s.wse with tiles := t.wse.tiles, chains := t.wse.chains }, lkd := t.lkd } := by
  intro t
  have only : State.onlyChains _ t := tilesChanged_onlyChains _
  refine ⟨only.tiles, tilesChanged_follow rfl, ?_⟩
  rw [only.tiles]
  exact only.eq

theorem sideOk_iff (n : Nat) : sideOk n = true ↔ 16 ≤ n ∧ n ≤ 256 ∧ n % 16 = 0 := by
  simp only [sideOk, Bool.and_eq_true, decide_eq_true_eq, and_assoc]

theorem tileOutOfRange_eq_false {q : SetTileReq} (number : q.tile ≤ 255) (wall : q.wall ≤ 3) (chain : q.chain ≤ 7)
    (position : q.position ≤ 31) (width : sideOk q.rect.width = true) (height : sideOk q.rect.height = true) :
    tileOutOfRange q = false := by
  simp only [tileOutOfRange, wallOk, Nat.not_lt.mpr number, wall, Nat.not_lt.mpr chain, Nat.not_lt.mpr position, width,
    height, decide_true, decide_false, Bool.not_true, Bool.or_false]

/-- R87 checks 3 to 6 pass: the wall is there, the tile lies in its canvas, and the rest of its chain belongs to the
wall and leaves the position free. -/
theorem tileFailing_none {q : SetTileReq} {x : Wall} (found : s.wall q.wall = some x)
    (right : q.rect.x + q.rect.width ≤ x.width) (bottom : q.rect.y + q.rect.height ≤ x.height)
    (others : ∀ e ∈ s.wse.tiles, e.1 ≠ q.tile → e.2.chain = q.chain → e.2.wall = q.wall ∧ e.2.position ≠ q.position) :
    tileFailing q s = none := by
  have nobody (p : Tile → Bool) (h : ∀ t : Tile, t.wall = q.wall → t.position ≠ q.position → p t = false) :
      s.wse.tiles.any (fun e => decide (e.1 ≠ q.tile) && decide (e.2.chain = q.chain) && p e.2) = false := by
    rw [List.any_eq_false]
    intro e mem
    simp only [Bool.and_eq_true, decide_eq_true_eq]
    rintro ⟨⟨other, chain⟩, holds⟩
    obtain ⟨wall, position⟩ := others e mem other chain
    exact Bool.false_ne_true ((h e.2 wall position).symm.trans holds)
  have sameWall := nobody (fun t => decide (t.wall ≠ q.wall)) fun t wall _ => decide_eq_false (not_not_intro wall)
  have free := nobody (fun t => decide (t.position = q.position)) fun t _ position => decide_eq_false position
  simp only [tileFailing, found, Nat.not_lt.mpr right, Nat.not_lt.mpr bottom, sameWall, free, decide_false,
    Bool.or_false, firstFailing, Bool.false_eq_true, if_false]

theorem setTile_ok {q : SetTileReq} {o : Orientation} (unlocked : s.fsc.showLock = false)
    (inRange : tileOutOfRange q = false) (code : Orientation.ofCode q.orientation = some o)
    (passes : tileFailing q s = none) :
    let tile : Tile := ⟨q.wall, q.chain, q.position, q.rect, o, keptCorrection q.tile s.wse.tiles⟩
    setTile q s = .reply .ok (tile.fields q.tile) (placeTile q.tile tile s) := by
  simp only [setTile, unlocked, inRange, code, passes, firstFailing, Bool.false_eq_true, if_false]

theorem removeTile_ok {id : Nat} {x : Tile} (unlocked : s.fsc.showLock = false) (number : id ≤ 255)
    (found : s.wse.tiles.find id = some x) :
    removeTile id s = .reply .ok [.u1 id, .u1 x.wall, .u1 x.chain] (takeTile id s) := by
  have inTable : decide (255 < id) = false := decide_eq_false (Nat.not_lt.mpr number)
  simp only [removeTile, found, unlocked, inTable, firstFailing, Bool.false_eq_true, if_false]

/-- Settles O39: each request's checks pass, and the chains follow the tile map that it leaves. -/
theorem tilesPlacedAndRemoved : Obligations.TilesPlacedAndRemoved := by
  unfold Obligations.TilesPlacedAndRemoved
  intro tag rest s unlocked
  refine ⟨?_, ?_⟩
  · intro q x o taken number wall chain position width width' widthStep height height' heightStep code found right
      bottom others correction
    have inRange := tileOutOfRange_eq_false number wall chain position ((sideOk_iff _).mpr ⟨width, width', widthStep⟩)
      ((sideOk_iff _).mpr ⟨height, height', heightStep⟩)
    have passes := tileFailing_none (s := s.atHead (.setTile tag q) rest) found right bottom others
    exact ⟨_, _, congrArg _ (serve_replyFrom _ _ _ _ _ _ _ _ _ taken (setTile_ok unlocked inRange code passes)),
      tilesChanged_atHead _ _ _ s⟩
  · intro id x taken number found
    exact ⟨_, congrArg _ (serve_replyFrom _ _ _ _ _ _ _ _ _ taken
      (removeTile_ok (s := s.atHead _ rest) unlocked number found)), tilesChanged_atHead _ _ _ s⟩

end Sys2Proof.Machine
end

section
/-! PROOF. Echoed words, and the judgement of a chain at a boundary (O41). -/

namespace Sys2Proof.Machine

variable {c : Nat} {s : State}

/-! ## The judgement, R90 -/

theorem Chain.echoed_iff (x : Chain) :
    x.echoed = true ↔ x.sent ≠ none ∧ x.sent.map (fun w => [w]) = some x.returned := by
  unfold Chain.echoed
  cases x.sent with
  | none => exact iff_of_false Bool.false_ne_true fun sent => sent.1 rfl
  | some w =>
    simp only [decide_eq_true_eq, ne_eq, reduceCtorEq, not_false_eq_true, true_and, Option.map_some, Option.some.injEq]
    exact eq_comm

theorem judgeChain_unjudged (h : (s.chain c).whole = false ∨ (s.chain c).state = .idle) : judgeChain c s = s := by
  rcases h with broken | idle
  · simp only [judgeChain, broken, Bool.false_eq_true, if_false]
  · simp only [judgeChain, idle, ite_self]

section Whole

variable (whole : (s.chain c).whole = true)
include whole

theorem judgeChain_ok_echoed (state : (s.chain c).state = .ok) (echoed : (s.chain c).echoed = true) :
    judgeChain c s = putChain c { s.chain c with misses := 0 } s := by
  simp only [judgeChain, whole, state, echoed, if_true]

theorem judgeChain_ok_missed (state : (s.chain c).state = .ok) (missed : (s.chain c).echoed = false) :
    judgeChain c s =
      if 2 ≤ (s.chain c).misses then enterChain c .fault (chainWall c s.wse.tiles) s
      else putChain c { s.chain c with misses := (s.chain c).misses + 1 } s := by
  simp only [judgeChain, whole, state, missed, if_true, Nat.succ_le_succ_iff]

theorem judgeChain_fault_missed (state : (s.chain c).state = .fault) (missed : (s.chain c).echoed = false) :
    judgeChain c s = putChain c { s.chain c with echoes := 0 } s := by
  simp only [judgeChain, whole, state, missed, if_true]

theorem judgeChain_fault_echoed (state : (s.chain c).state = .fault) (echoed : (s.chain c).echoed = true) :
    judgeChain c s =
      if 2 ≤ (s.chain c).echoes then enterChain c .ok (chainWall c s.wse.tiles) s
      else putChain c { s.chain c with echoes := (s.chain c).echoes + 1 } s := by
  simp only [judgeChain, whole, state, echoed, if_true, Nat.succ_le_succ_iff]

end Whole

/-- A chain judged is left as it was, has a count written, or changes state: no other block is written but what is
ready, and no other chain. -/
theorem judgeChain_cases (c : Nat) (s : State) :
    judgeChain c s = s ∨ (∃ x, judgeChain c s = putChain c x s) ∨
      ∃ new, judgeChain c s = enterChain c new (chainWall c s.wse.tiles) s := by
  cases whole : (s.chain c).whole with
  | false => exact .inl (judgeChain_unjudged (.inl whole))
  | true =>
    cases state : (s.chain c).state with
    | idle => exact .inl (judgeChain_unjudged (.inr state))
    | ok =>
      cases echoed : (s.chain c).echoed with
      | true => exact .inr (.inl ⟨_, judgeChain_ok_echoed whole state echoed⟩)
      | false =>
        rw [judgeChain_ok_missed whole state echoed]
        split
        · exact .inr (.inr ⟨_, rfl⟩)
        · exact .inr (.inl ⟨_, rfl⟩)
    | fault =>
      cases echoed : (s.chain c).echoed with
      | false => exact .inr (.inl ⟨_, judgeChain_fault_missed whole state echoed⟩)
      | true =>
        rw [judgeChain_fault_echoed whole state echoed]
        split
        · exact .inr (.inr ⟨_, rfl⟩)
        · exact .inr (.inl ⟨_, rfl⟩)

/-! ## What the judgement leaves -/

theorem chain_putChain_self (x : Chain) (number : c < 8) : (putChain c x s).chain c = x :=
  (chain_putChain c c x s number).trans (if_pos rfl)

theorem chain_enterChain_self (new : ChainState) (wall : Option Nat) (number : c < 8) :
    (enterChain c new wall s).chain c =
      { s.chain c with
        state := new, misses := 0, echoes := 0, whole := if new = .idle then false else (s.chain c).whole } :=
  (chain_enterChain c c new wall s number).trans (if_pos rfl)

theorem enterChain_lkd {old new : ChainState} (state : (s.chain c).state = old) (changes : old ≠ new)
    (wall : Option Nat) :
    (enterChain c new wall s).lkd = s.lkd.raise ⟨.chainState, s.rtu.counter,
      [.u2 c, .u2 old.code, .u2 new.code, opt2 wall, .u2 (tileCount c s.wse.tiles)]⟩ := by
  simp only [enterChain, state, changes, if_false]
  rfl

theorem judgeChain_onlyChains (c : Nat) (s : State) : s.onlyChains (judgeChain c s) := by
  rcases judgeChain_cases c s with same | ⟨x, counted⟩ | ⟨new, entered⟩
  · rw [same]
    exact .refl s
  · rw [counted]
    exact putChain_onlyChains c x
  · rw [entered]
    exact enterChain_onlyChains c new _

theorem judgeChain_other {d : Nat} (number : d < 8) (other : d ≠ c) : (judgeChain c s).chain d = s.chain d := by
  rcases judgeChain_cases c s with same | ⟨x, counted⟩ | ⟨new, entered⟩
  · rw [same]
  · rw [counted, chain_putChain c d x s number, if_neg other]
  · rw [entered, chain_enterChain c d new _ s number, if_neg other]

/-- R90: CHAIN_STATE is raised by the third miss in a row in OK and by the third echo in a row in FAULT alone. -/
theorem judgeChain_lkd (c : Nat) (s : State) :
    (judgeChain c s).lkd =
      if (s.chain c).whole = true ∧ (s.chain c).state = .ok ∧ (s.chain c).echoed = false ∧ 2 ≤ (s.chain c).misses then
        (enterChain c .fault (chainWall c s.wse.tiles) s).lkd
      else if (s.chain c).whole = true ∧ (s.chain c).state = .fault ∧ (s.chain c).echoed = true ∧
          2 ≤ (s.chain c).echoes then
        (enterChain c .ok (chainWall c s.wse.tiles) s).lkd
      else s.lkd := by
  by_cases whole : (s.chain c).whole = true
  · cases state : (s.chain c).state with
    | idle => simp only [judgeChain_unjudged (.inr state), reduceCtorEq, false_and, and_false, if_false]
    | ok =>
      cases echoed : (s.chain c).echoed with
      | true =>
        simp only [judgeChain_ok_echoed whole state echoed, reduceCtorEq, false_and, and_false, if_false]
        rfl
      | false =>
        simp only [judgeChain_ok_missed whole state echoed, whole, true_and, reduceCtorEq, false_and, if_false,
          apply_ite State.lkd]
        rfl
    | fault =>
      cases echoed : (s.chain c).echoed with
      | false =>
        simp only [judgeChain_fault_missed whole state echoed, reduceCtorEq, false_and, and_false, if_false]
        rfl
      | true =>
        simp only [judgeChain_fault_echoed whole state echoed, whole, true_and, reduceCtorEq, false_and, if_false,
          apply_ite State.lkd]
        rfl
  · rw [judgeChain_unjudged (.inl (Bool.eq_false_of_not_eq_true whole)), if_neg (fun judged => whole judged.1),
      if_neg (fun judged => whole judged.1)]

/-- Settles O41: the command records the word, and each outcome of the judgement is read off its own equation. -/
theorem chainsAreJudged : Obligations.ChainsAreJudged := by
  unfold Obligations.ChainsAreJudged
  intro c word s number
  refine ⟨if_pos (Nat.le_of_lt_succ number), ?_⟩
  intro x y echoed
  have hit (e : echoed) : x.echoed = true := x.echoed_iff.mpr e
  have missed (m : ¬echoed) : x.echoed = false := Bool.eq_false_of_not_eq_true (mt x.echoed_iff.mp m)
  have counted {z : Chain} (h : judgeChain c s = putChain c z s) : y = z :=
    (congrArg (State.chain · c) h).trans (chain_putChain_self z number)
  have entered {new : ChainState} {wall : Option Nat} (h : judgeChain c s = enterChain c new wall s) :
      y.state = new ∧ y.misses = 0 ∧ y.echoes = 0 := by
    have hy : y = _ := (congrArg (State.chain · c) h).trans (chain_enterChain_self new wall number)
    rw [hy]
    exact ⟨rfl, rfl, rfl⟩
  refine ⟨judgeChain_unjudged, fun whole ok => ⟨fun e => ?_, fun m few => ?_, fun m third => ?_⟩,
    fun whole fault => ⟨fun m => ?_, fun e few => ?_, fun e third => ?_⟩, ?_, (judgeChain_onlyChains c s).eq,
    fun d => judgeChain_other⟩
  · rw [counted (judgeChain_ok_echoed whole ok (hit e))]
    exact ⟨ok, rfl, rfl⟩
  · rw [counted ((judgeChain_ok_missed whole ok (missed m)).trans (if_neg (Nat.not_le.mpr few)))]
    exact ⟨ok, rfl, rfl⟩
  · exact entered ((judgeChain_ok_missed whole ok (missed m)).trans (if_pos third))
  · rw [counted (judgeChain_fault_missed whole fault (missed m))]
    exact ⟨fault, rfl, rfl⟩
  · rw [counted ((judgeChain_fault_echoed whole fault (hit e)).trans (if_neg (Nat.not_le.mpr few)))]
    exact ⟨fault, rfl, rfl⟩
  · exact entered ((judgeChain_fault_echoed whole fault (hit e)).trans (if_pos third))
  · intro notice
    have isMissed : x.echoed = false ↔ ¬echoed :=
      ⟨fun no e => Bool.false_ne_true (no.symm.trans (hit e)), missed⟩
    refine (judgeChain_lkd c s).trans
      (ite_congr ?_ (fun fails => ?_) fun _ => ite_congr ?_ (fun recovers => ?_) fun _ => rfl)
    · exact propext (and_congr_right' (and_congr_right' (and_congr_left' isMissed)))
    · exact enterChain_lkd (new := .fault) fails.2.1 nofun _
    · exact propext (and_congr_right' (and_congr_right' (and_congr_left' x.echoed_iff)))
    · exact enterChain_lkd (new := .ok) recovers.2.1 nofun _

end Sys2Proof.Machine
end

section
/-! PROOF. SET CORRECTION and DEFINE ZONE (O40). -/

namespace Sys2Proof.Machine

variable {tag : Byte} {rest : List QueuedRequest} {s : State}

/-- R101: an absent field stays, a present one is clamped from above. -/
theorem clampOr_eq (limit old : Nat) (field : Option Nat) :
    (field.map (min limit)).getD old = match field with
      | none => old
      | some n => if limit < n then limit else n := by
  cases field with
  | none => rfl
  | some n =>
    by_cases above : limit < n
    · exact (min_eq_left above.le).trans (if_pos above).symm
    · exact (min_eq_right (Nat.not_lt.mp above)).trans (if_neg above).symm

theorem setCorrection_ok {q : SetCorrectionReq} {x : Tile} (unlocked : s.fsc.showLock = false) (number : q.tile ≤ 255)
    (found : s.wse.tiles.find q.tile = some x) :
    setCorrection q s = .reply .ok (.u1 q.tile :: (x.correction.change q).fields)
      (s.setWse { s.wse with
        tiles := s.wse.tiles.insert q.tile { x with correction := x.correction.change q } }) := by
  have inTable : decide (255 < q.tile) = false := decide_eq_false (Nat.not_lt.mpr number)
  simp only [setCorrection, found, unlocked, inTable, firstFailing, Bool.false_eq_true, if_false]

theorem defineZone_defined {q : DefineZoneReq} {x : Wall} {w : Nat} (unlocked : s.fsc.showLock = false)
    (number : q.zone ≤ 7) (named : q.wall = some w) (wall : w ≤ 3) (found : s.wall w = some x)
    (fits : rectWithin q.rect x.width x.height = true) :
    defineZone q s = .reply .ok (zoneFields q.zone (some (newZone w q.rect)))
      (setZones (s.wse.zones.insert q.zone (newZone w q.rect)) s) := by
  have inTable : decide (7 < q.zone) = false := decide_eq_false (Nat.not_lt.mpr number)
  simp only [defineZone, named, unlocked, inTable, wallOk, Option.getD_some, wall, decide_true, Bool.not_true,
    Bool.or_false, firstFailing, Bool.false_eq_true, if_false, found, fits, if_true]

theorem defineZone_undefined {q : DefineZoneReq} (unlocked : s.fsc.showLock = false) (number : q.zone ≤ 7)
    (unnamed : q.wall = none) :
    defineZone q s = .reply .ok (zoneFields q.zone none) (setZones (s.wse.zones.erase q.zone) s) := by
  have inTable : decide (7 < q.zone) = false := decide_eq_false (Nat.not_lt.mpr number)
  simp only [defineZone, unnamed, unlocked, inTable, wallOk, Option.getD_none, Nat.zero_le, decide_true,
    Bool.not_true, Bool.or_false, firstFailing, Bool.false_eq_true, if_false]

theorem rectWithin_iff (r : Rect) (width height : Nat) :
    rectWithin r width height = true ↔
      0 < r.width ∧ 0 < r.height ∧ r.x + r.width ≤ width ∧ r.y + r.height ≤ height := by
  simp only [rectWithin, Bool.and_eq_true, decide_eq_true_eq, Nat.pos_iff_ne_zero, and_assoc]

/-- Settles O40: the three handlers with their checks passed, and the Link Dispatcher's reply around them. -/
theorem correctionsAndZonesWritten : Obligations.CorrectionsAndZonesWritten := by
  unfold Obligations.CorrectionsAndZonesWritten
  intro tag rest s unlocked
  refine ⟨?_, ?_, ?_⟩
  · intro q x taken number found top c
    have change : x.correction.change q = c := by
      simp only [Correction.change, clampOr_eq]
      rfl
    rw [← change]
    exact congrArg _ (serve_ok _ _ _ _ _ _ _ _ taken
      (setCorrection_ok (s := s.atHead _ rest) unlocked number found) rfl)
  · intro q x w taken number named wall found width height right bottom z
    have fits := (rectWithin_iff q.rect x.width x.height).mpr ⟨width, height, right, bottom⟩
    exact congrArg _ (serve_ok _ _ _ _ _ _ _ _ taken
      (defineZone_defined (s := s.atHead _ rest) unlocked number named wall found fits) rfl)
  · intro q taken number unnamed
    exact congrArg _ (serve_ok _ _ _ _ _ _ _ _ taken
      (defineZone_undefined (s := s.atHead _ rest) unlocked number unnamed) rfl)

end Sys2Proof.Machine
end

section
/-! PROOF. The pixel path: what layers offer, wall values, what tiles are sent, patterns and the order of the pixels
(O43). -/

namespace Sys2Proof.Machine

/-! ## What a layer offers, R79 and R96 -/

theorem Layer.covers_iff (l : Layer) (x y : Nat) :
    l.covers x y = true ↔
      l.px ≤ x ∧ (x : Int) < l.px + l.rect.width ∧ l.py ≤ y ∧ (y : Int) < l.py + l.rect.height := by
  simp only [Layer.covers, Bool.and_eq_true, decide_eq_true_eq, and_assoc]

theorem rgbOf_lt (word : Word) : (rgbOf word).r < 1024 ∧ (rgbOf word).g < 1024 ∧ (rgbOf word).b < 1024 :=
  ⟨Nat.mod_lt _ (by decide), Nat.mod_lt _ (by decide), Nat.mod_lt _ (by decide)⟩

section Offer

variable {s : State} {w n x y id : Nat} {l : FrameLayer} {r : Region} (admitted : l.admission = .admitted)
  (source : l.layer.source = some id) (region : l.region = some r)

include admitted source region in
theorem offer_outside (outside : ¬l.layer.covers x y = true) : s.offer w n l x y = none := by
  simp only [State.offer, admitted, source, region, outside, if_false, Bool.false_eq_true]

include admitted source region in
theorem offer_inside (inside : l.layer.covers x y = true) :
    s.offer w n l x y =
      (s.sourceBuffer w n id r).map fun b => rgbOf (s.fsc.readPixel r b (l.layer.sourceOffset r.width x y)) := by
  simp only [State.offer, admitted, source, region, inside, if_true]

theorem sourceBuffer_still (kind : r.kind = .still) : s.sourceBuffer w n id r = some 0 := by
  simp only [State.sourceBuffer, kind]

theorem sourceBuffer_unbound (kind : r.kind = .live) (unbound : s.lip.bound ≠ some id) :
    s.sourceBuffer w n id r = some 0 := by
  simp only [State.sourceBuffer, kind, State.isBound, unbound, decide_false, Bool.false_eq_true, if_false]

theorem sourceBuffer_bound (kind : r.kind = .live) (bound : s.lip.bound = some id) :
    s.sourceBuffer w n id r = s.latched w n := by
  simp only [State.sourceBuffer, kind, State.isBound, bound, decide_true, if_true]

end Offer

/-! ## Brightness, R98 -/

theorem dim_le (acc : Nat) {brightness : Nat} (h : brightness ≤ 65535) : dim acc brightness ≤ acc :=
  Nat.div_le_of_le_mul (Nat.mul_comm 65535 acc ▸ Nat.mul_le_mul_left acc h)

theorem dim_full (acc : Nat) : dim acc 65535 = acc := Nat.mul_div_cancel acc (by decide)

/-! ## What a tile is sent, R99, R100, R103, R104 -/

section TileOutput

variable {f : FrameParams} (width x id : Nat) (c : Correction) (v : Rgb)

theorem tileOutput_corrected (mode : f.mode = .normal ∨ f.mode = .freeze) :
    tileOutput f width x id c v =
      (correct v.r c.gainR c.offset c.clip, correct v.g c.gainG c.offset c.clip,
        correct v.b c.gainB c.offset c.clip) := by
  rcases mode with mode | mode <;> simp only [tileOutput, mode]

theorem tileOutput_test (mode : f.mode = .test) :
    tileOutput f width x id c v =
      (clipStep (f.pattern.value width x id).r c.offset c.clip,
        clipStep (f.pattern.value width x id).g c.offset c.clip,
        clipStep (f.pattern.value width x id).b c.offset c.clip) := by
  simp only [tileOutput, mode]

theorem tileOutput_blank (mode : f.mode = .blank) :
    tileOutput f width x id c v = (⟨0, false⟩, ⟨0, false⟩, ⟨0, false⟩) := by
  simp only [tileOutput, mode]

/-- A pixel is marked clipped exactly when the clip lowered some component of it. -/
theorem sentClipped_clipStep (r g b offset clip : Nat) :
    sentClipped (clipStep r offset clip, clipStep g offset clip, clipStep b offset clip) = true ↔
      clip < r + offset ∨ clip < g + offset ∨ clip < b + offset := by
  simp only [sentClipped, clipStep, Bool.or_eq_true, decide_eq_true_eq, or_assoc]

theorem clipStep_le (v offset clip : Nat) : (clipStep v offset clip).value ≤ clip := Nat.min_le_right _ _

theorem sentRgb_tileOutput_le :
    (sentRgb (tileOutput f width x id c v)).r ≤ c.clip ∧ (sentRgb (tileOutput f width x id c v)).g ≤ c.clip ∧
      (sentRgb (tileOutput f width x id c v)).b ≤ c.clip := by
  cases mode : f.mode with
  | normal =>
    rw [tileOutput_corrected width x id c v (.inl mode)]
    exact ⟨clipStep_le _ _ _, clipStep_le _ _ _, clipStep_le _ _ _⟩
  | freeze =>
    rw [tileOutput_corrected width x id c v (.inr mode)]
    exact ⟨clipStep_le _ _ _, clipStep_le _ _ _, clipStep_le _ _ _⟩
  | test =>
    rw [tileOutput_test width x id c v mode]
    exact ⟨clipStep_le _ _ _, clipStep_le _ _ _, clipStep_le _ _ _⟩
  | blank =>
    rw [tileOutput_blank width x id c v mode]
    exact ⟨Nat.zero_le _, Nat.zero_le _, Nat.zero_le _⟩

end TileOutput

/-! ## The pattern values, R86 and R104 -/

theorem barOf_eq {width x i : Nat} (bar : i < 8) (left : i * width / 8 ≤ x) (right : x < (i + 1) * width / 8) :
    barOf width x = i := by
  have first : (List.range 8).find? (fun i => decide (i * width / 8 ≤ x) && decide (x < (i + 1) * width / 8)) =
      some i := by
    rw [List.find?_range_eq_some]
    refine ⟨by simp only [left, right, decide_true, Bool.and_true], List.mem_range.mpr bar, fun j before => ?_⟩
    have ends : (j + 1) * width / 8 ≤ x := (Nat.div_le_div_right (Nat.mul_le_mul_right width before)).trans left
    simp only [Nat.not_lt.mpr ends, decide_false, Bool.and_false, Bool.not_false]
  simp only [barOf, first]

theorem barLit_eq : ∀ i, i < 8 → barLit i =
    (decide (i ∈ [0, 1, 4, 5]), decide (i ∈ [0, 1, 2, 3]), decide (i ∈ [0, 2, 4, 6])) := by
  decide

theorem barColour_eq {width x i : Nat} (lit : Nat) (bar : i < 8) (left : i * width / 8 ≤ x)
    (right : x < (i + 1) * width / 8) :
    barColour lit width x = ⟨if i ∈ [0, 1, 4, 5] then lit else 0, if i ∈ [0, 1, 2, 3] then lit else 0,
      if i ∈ [0, 2, 4, 6] then lit else 0⟩ := by
  simp only [barColour, barOf_eq bar left right, barLit_eq i bar, decide_eq_true_eq]

/-! ## The order of the pixels, R102 -/

namespace Tile

variable {t : Tile} {k j : Nat}

/-- The place, in raster order of the rectangle, of the canvas pixel sent as tile pixel `k`. -/
def rasterOf (t : Tile) (k : Nat) : Nat :=
  match t.orientation with
  | .normal => k
  | .turned => t.rect.width * t.rect.height - 1 - k

theorem rasterOf_lt (h : k < t.rect.width * t.rect.height) : t.rasterOf k < t.rect.width * t.rect.height := by
  unfold rasterOf
  split <;> omega

theorem rasterOf_inj (hj : j < t.rect.width * t.rect.height) (hk : k < t.rect.width * t.rect.height)
    (same : t.rasterOf j = t.rasterOf k) : j = k := by
  unfold rasterOf at same
  split at same <;> omega

end Tile

/-- In a rectangle `w` by `h`, raster place `k` counted from the end lies in column and row counted from the end. -/
theorem raster_turned {w h k : Nat} (hk : k < w * h) :
    (w * h - 1 - k) % w = w - 1 - k % w ∧ (w * h - 1 - k) / w = h - 1 - k / w := by
  have columns : 0 < w := Nat.pos_of_mul_pos_right (Nat.zero_lt_of_lt hk)
  have column : k % w < w := Nat.mod_lt k columns
  obtain ⟨d, rows⟩ := Nat.exists_eq_add_of_lt (Nat.div_lt_of_lt_mul hk)
  have place : w * h - 1 - k = w * d + (w - 1 - k % w) := by
    have area : w * h = w * (k / w) + w * d + w := by rw [rows]; ring
    have split := Nat.div_add_mod k w
    omega
  rw [place, Nat.mul_add_mod, Nat.mul_add_div columns, Nat.mod_eq_of_lt (by omega), Nat.div_eq_of_lt (by omega)]
  omega

namespace Tile

variable {t : Tile} {k j : Nat}

theorem canvasPixel_eq (h : k < t.rect.width * t.rect.height) :
    t.canvasPixel k = (t.rect.x + t.rasterOf k % t.rect.width, t.rect.y + t.rasterOf k / t.rect.width) := by
  cases orientation : t.orientation with
  | normal => simp only [canvasPixel, rasterOf, orientation]
  | turned =>
    have columns : 0 < t.rect.width := Nat.pos_of_mul_pos_right (Nat.zero_lt_of_lt h)
    have column := Nat.mod_lt k columns
    have row := Nat.div_lt_of_lt_mul h
    obtain ⟨mod, div⟩ := raster_turned h
    simp only [canvasPixel, rasterOf, orientation, mod, div, Prod.mk.injEq]
    omega

theorem canvasPixel_covered (h : k < t.rect.width * t.rect.height) :
    rectCovers t.rect (t.canvasPixel k).1 (t.canvasPixel k).2 = true := by
  have place := rasterOf_lt h
  have columns : 0 < t.rect.width := Nat.pos_of_mul_pos_right (Nat.zero_lt_of_lt h)
  have column := Nat.mod_lt (t.rasterOf k) columns
  have row := Nat.div_lt_of_lt_mul place
  simp only [canvasPixel_eq h, rectCovers, Bool.and_eq_true, decide_eq_true_eq]
  exact ⟨⟨⟨Nat.le_add_right _ _, Nat.add_lt_add_left column _⟩, Nat.le_add_right _ _⟩, Nat.add_lt_add_left row _⟩

theorem canvasPixel_inj (hj : j < t.rect.width * t.rect.height) (hk : k < t.rect.width * t.rect.height)
    (same : t.canvasPixel j = t.canvasPixel k) : j = k := by
  rw [canvasPixel_eq hj, canvasPixel_eq hk, Prod.mk.injEq] at same
  have column : t.rasterOf j % t.rect.width = t.rasterOf k % t.rect.width := Nat.add_left_cancel same.1
  have row : t.rasterOf j / t.rect.width = t.rasterOf k / t.rect.width := Nat.add_left_cancel same.2
  refine rasterOf_inj hj hk ?_
  rw [← Nat.div_add_mod (t.rasterOf j) t.rect.width, column, row, Nat.div_add_mod]

/-- A TURNED tile takes its pixels in the opposite order. -/
theorem canvasPixel_turned (h : k < t.rect.width * t.rect.height) :
    ({ t with orientation := .turned } : Tile).canvasPixel k =
      ({ t with orientation := .normal } : Tile).canvasPixel (t.rect.width * t.rect.height - 1 - k) :=
  canvasPixel_eq (t := { t with orientation := .turned }) h

end Tile

/-- Settles O43: each stage from the source to the tile by its own equations, and the order of the pixels by the raster
place of each. -/
theorem pixelPathToTiles : Obligations.PixelPathToTiles := by
  unfold Obligations.PixelPathToTiles
  refine ⟨?_, ?_, ?_, ?_, ?_⟩
  · intro s w n x y id l r admitted source region inside sourceX sourceY pixel
    have covers : l.layer.covers x y = true ↔ inside := l.layer.covers_iff x y
    have offered (h : inside) : s.offer w n l x y = (s.sourceBuffer w n id r).map pixel :=
      offer_inside admitted source region (covers.mpr h)
    refine ⟨fun outside => offer_outside admitted source region (mt covers.mp outside), fun h kind => ?_,
      fun h kind unbound => ?_, fun h kind bound => ?_, fun b => rgbOf_lt _⟩
    · rw [offered h, sourceBuffer_still kind, Option.map_some]
    · rw [offered h, sourceBuffer_unbound kind unbound, Option.map_some]
    · rw [offered h, sourceBuffer_bound kind bound]
      exact Option.map_map _ _ _
  · intro s w x y background f c v
    refine ⟨rfl, fun h => ⟨dim_le _ h, dim_le _ h, dim_le _ h⟩, fun full => ?_⟩
    show (⟨dim c.r f.brightness, dim c.g f.brightness, dim c.b f.brightness⟩ : Rgb) = c
    rw [full, dim_full, dim_full, dim_full]
  · intro f width x id c v out
    refine ⟨fun mode => ?_, fun mode => ?_, fun mode => ?_, sentRgb_tileOutput_le width x id c v⟩
    · rw [show out = _ from tileOutput_corrected width x id c v mode]
      exact ⟨rfl, rfl, rfl, sentClipped_clipStep _ _ _ _ _⟩
    · rw [show out = _ from tileOutput_test width x id c v mode]
      exact ⟨rfl, rfl, rfl, sentClipped_clipStep _ _ _ _ _⟩
    · rw [show out = _ from tileOutput_blank width x id c v mode]
      exact ⟨rfl, rfl⟩
  · intro width x id colour
    exact ⟨rfl, rfl, fun i bar left right => ⟨barColour_eq 767 bar left right, barColour_eq 1023 bar left right⟩⟩
  · intro t k h
    refine ⟨fun normal => ?_, Tile.canvasPixel_turned h, Tile.canvasPixel_covered h,
      fun j hj same => Tile.canvasPixel_inj hj h same⟩
    simp only [Tile.canvasPixel, normal]

end Sys2Proof.Machine
end

section
/-! SUPPORT. The admission, R91: what one pass over the walls writes and what it leaves, and what holds of the outcomes
and of the total when all four passes are done. -/

namespace Sys2Proof.Machine

/-! ## One layer -/

theorem admitLayer_total (total : Nat) (lowerShed : Bool) (l : FrameLayer) :
    (admitLayer total lowerShed l).1 =
      total + if (admitLayer total lowerShed l).2 = .admitted then l.visible else 0 := by
  unfold admitLayer
  split
  · rfl
  · split
    · rfl
    · split <;> rfl

theorem admitLayer_le {total : Nat} (lowerShed : Bool) (l : FrameLayer) (h : total ≤ passLimit) :
    (admitLayer total lowerShed l).1 ≤ passLimit := by
  unfold admitLayer
  split
  · exact h
  · split
    · exact h
    · split
      · assumption
      · exact h

theorem admitLayer_outcome (total : Nat) (lowerShed : Bool) (l : FrameLayer) :
    (admitLayer total lowerShed l).2 =
      if lowerShed = true then .shed
      else if l.layer.source = none ∨ l.opacity = 0 then .inactive
      else if total + l.visible ≤ 16777216 then .admitted
      else .shed := by
  have inactive : (!l.isActive) = true ↔ l.layer.source = none ∨ l.opacity = 0 := by
    simp only [FrameLayer.isActive, Bool.not_and, Bool.or_eq_true, Bool.not_eq_true', Option.isSome_eq_false_iff,
      Option.isNone_iff_eq_none, decide_eq_false_iff_not, Nat.pos_iff_ne_zero, not_not]
  simp only [admitLayer, inactive, apply_ite Prod.snd]
  rfl

/-! ## One wall -/

/-- The pixel passes that a wall's layer takes in the frame: its visible pixels if it is admitted. -/
def Wall.passes (layer : Nat) (x : Wall) : Nat :=
  match x.frame with
  | none => 0
  | some f =>
    let l := at_ f.layers (layer - 1) FrameLayer.none_
    if l.admission = .admitted then l.visible else 0

/-- The layer has the outcome that R91 gives it after a running total. -/
def FrameParams.follows (layer total : Nat) (f : FrameParams) : Prop :=
  let l := at_ f.layers (layer - 1) FrameLayer.none_
  l.admission = (admitLayer total (f.lowerShed layer) l).2

namespace FrameParams

variable {f : FrameParams} {layer k : Nat} {a : Admission}

theorem withOutcome_same (bottom : 1 ≤ layer) (top : layer ≤ 4) :
    at_ (f.withOutcome layer a).layers (layer - 1) FrameLayer.none_ =
      { at_ f.layers (layer - 1) FrameLayer.none_ with admission := a } :=
  (at_put _ _ _ _ _ (by omega)).trans (if_pos rfl)

theorem withOutcome_other (i : Nat) (other : i ≠ layer - 1) (top : i < 4) :
    at_ (f.withOutcome layer a).layers i FrameLayer.none_ = at_ f.layers i FrameLayer.none_ :=
  (at_put_read _ _ _ _ _ top).trans (if_neg other)

/-- Writing the outcome of a layer leaves what was below every layer but the next. -/
theorem withOutcome_lowerShed (bottom : 1 ≤ layer) (top : k ≤ 4) (other : k ≠ layer + 1) :
    (f.withOutcome layer a).lowerShed k = f.lowerShed k := by
  unfold lowerShed
  by_cases first : 1 < k
  · rw [withOutcome_other (k - 2) (by omega) (by omega)]
  · simp only [first, decide_false, Bool.false_and]

theorem follows_withOutcome_other (bottom : 1 ≤ layer) (lowest : 1 ≤ k) (below : k < layer) (top : layer ≤ 4)
    (total : Nat) : (f.withOutcome layer a).follows k total ↔ f.follows k total := by
  have layers : at_ (f.withOutcome layer a).layers (k - 1) FrameLayer.none_ = at_ f.layers (k - 1) FrameLayer.none_ :=
    withOutcome_other (k - 1) (by omega) (by omega)
  simp only [follows, withOutcome_lowerShed bottom (below.le.trans top) (by omega), layers]

/-- The outcome that the admission writes is the one that R91 gives. -/
theorem follows_withOutcome_same (bottom : 1 ≤ layer) (top : layer ≤ 4) (total : Nat) :
    (f.withOutcome layer
      (admitLayer total (f.lowerShed layer) (at_ f.layers (layer - 1) FrameLayer.none_)).2).follows layer total := by
  simp only [follows, withOutcome_lowerShed bottom top (by omega), withOutcome_same bottom top]
  rfl

end FrameParams

theorem Wall.passes_withOutcome_other {layer k : Nat} {x : Wall} {f : FrameParams} {a : Admission}
    (hf : x.frame = some f) (other : k - 1 ≠ layer - 1) (top : k - 1 < 4) :
    Wall.passes k { x with frame := some (f.withOutcome layer a) } = x.passes k := by
  simp only [Wall.passes, hf, FrameParams.withOutcome_other (k - 1) other top]

/-! ## One pass over the walls -/

/-- The pixel passes of one layer of all walls. -/
def admittedAt (layer : Nat) (walls : Table Wall) : Nat := (walls.map (fun e => e.2.passes layer)).sum

theorem admittedAt_cons (layer : Nat) (e : Nat × Wall) (rest : Table Wall) :
    admittedAt layer (e :: rest) = e.2.passes layer + admittedAt layer rest := by
  simp only [admittedAt, List.map_cons, List.sum_cons]

/-- Every wall's layer has the outcome that R91 gives it after the running total of the walls before it. -/
def admissionFollows (layer : Nat) : Nat → Table Wall → Prop
  | _, [] => True
  | total, e :: rest =>
    (∀ f, e.2.frame = some f → f.follows layer total) ∧ admissionFollows layer (total + e.2.passes layer) rest

section Pass

variable {layer k total : Nat} (w : Nat) {x : Wall} {f : FrameParams} (rest : Table Wall)

theorem admitAcross_none (hf : x.frame = none) :
    admitAcross layer total ((w, x) :: rest) =
      ((admitAcross layer total rest).1, (w, x) :: (admitAcross layer total rest).2) := by
  simp only [admitAcross, hf]

theorem admitAcross_some (hf : x.frame = some f) :
    admitAcross layer total ((w, x) :: rest) =
      let a := admitLayer total (f.lowerShed layer) (at_ f.layers (layer - 1) FrameLayer.none_)
      ((admitAcross layer a.1 rest).1,
        (w, { x with frame := some (f.withOutcome layer a.2) }) :: (admitAcross layer a.1 rest).2) := by
  simp only [admitAcross, hf]
  rfl

/-- A pass writes outcomes of its layer: what does not look at them stays. -/
theorem admitAcross_map {β : Type} (p : Wall → β)
    (h : ∀ x f a, x.frame = some f → p { x with frame := some (f.withOutcome layer a) } = p x) (walls : Table Wall) :
    (admitAcross layer total walls).2.map (fun e => p e.2) = walls.map (fun e => p e.2) := by
  induction walls generalizing total with
  | nil => rfl
  | cons e rest ih =>
    obtain ⟨w, x⟩ := e
    cases hf : x.frame with
    | none => simp only [admitAcross_none w rest hf, List.map_cons, ih]
    | some f => simp only [admitAcross_some w rest hf, List.map_cons, ih, h x f _ hf]

theorem admitAcross_le (walls : Table Wall) (h : total ≤ passLimit) :
    (admitAcross layer total walls).1 ≤ passLimit := by
  induction walls generalizing total with
  | nil => exact h
  | cons e rest ih =>
    obtain ⟨w, x⟩ := e
    cases hf : x.frame with
    | none =>
      rw [admitAcross_none w rest hf]
      exact ih h
    | some f =>
      rw [admitAcross_some w rest hf]
      exact ih (admitLayer_le _ _ h)

variable (bottom : 1 ≤ layer) (top : layer ≤ 4)
include bottom top

/-- What the layer of a wall adds to the running total is what it takes in the frame. -/
theorem Wall.passes_admitLayer :
    let a := admitLayer total (f.lowerShed layer) (at_ f.layers (layer - 1) FrameLayer.none_)
    total + Wall.passes layer { x with frame := some (f.withOutcome layer a.2) } = a.1 := by
  intro a
  simp only [Wall.passes, FrameParams.withOutcome_same bottom top]
  exact (admitLayer_total _ _ _).symm

theorem admitAcross_total (walls : Table Wall) :
    (admitAcross layer total walls).1 = total + admittedAt layer (admitAcross layer total walls).2 := by
  induction walls generalizing total with
  | nil => rfl
  | cons e rest ih =>
    obtain ⟨w, x⟩ := e
    cases hf : x.frame with
    | none =>
      have nothing : x.passes layer = 0 := by simp only [Wall.passes, hf]
      rw [admitAcross_none w rest hf, admittedAt_cons, nothing, Nat.zero_add, ih]
    | some f =>
      rw [admitAcross_some w rest hf]
      dsimp only
      rw [admittedAt_cons, ← Nat.add_assoc, Wall.passes_admitLayer bottom top, ih]

theorem admitAcross_follows (walls : Table Wall) :
    admissionFollows layer total (admitAcross layer total walls).2 := by
  induction walls generalizing total with
  | nil => trivial
  | cons e rest ih =>
    obtain ⟨w, x⟩ := e
    cases hf : x.frame with
    | none =>
      have nothing : x.passes layer = 0 := by simp only [Wall.passes, hf]
      rw [admitAcross_none w rest hf]
      refine ⟨fun f hf' => absurd (hf.symm.trans hf') (Option.some_ne_none f).symm, ?_⟩
      rw [nothing]
      exact ih
    | some f =>
      rw [admitAcross_some w rest hf]
      refine ⟨fun g hg => ?_, ?_⟩
      · rw [← Option.some.inj hg]
        exact FrameParams.follows_withOutcome_same bottom top total
      · rw [Wall.passes_admitLayer bottom top]
        exact ih

theorem admitAcross_keeps_follows {sum : Nat} (lowest : 1 ≤ k) (below : k < layer) (walls : Table Wall)
    (h : admissionFollows k sum walls) : admissionFollows k sum (admitAcross layer total walls).2 := by
  induction walls generalizing total sum with
  | nil => trivial
  | cons e rest ih =>
    obtain ⟨w, x⟩ := e
    obtain ⟨first, others⟩ := h
    cases hf : x.frame with
    | none =>
      rw [admitAcross_none w rest hf]
      exact ⟨first, ih others⟩
    | some f =>
      rw [admitAcross_some w rest hf]
      refine ⟨fun g hg => ?_, ?_⟩
      · rw [← Option.some.inj hg]
        exact (FrameParams.follows_withOutcome_other bottom lowest below top sum).mpr (first f hf)
      · rw [Wall.passes_withOutcome_other hf (by omega) (by omega)]
        exact ih others

end Pass

/-- The outcome of one wall's layer, after the walls before it. -/
theorem admissionFollows.at {layer total w : Nat} {walls before later : Table Wall} {x : Wall} {f : FrameParams}
    (h : admissionFollows layer total walls) (split : walls = before ++ (w, x) :: later) (hf : x.frame = some f) :
    f.follows layer (total + admittedAt layer before) := by
  subst split
  induction before generalizing total with
  | nil => exact h.1 f hf
  | cons e rest ih =>
    rw [admittedAt_cons, ← Nat.add_assoc]
    exact ih h.2

/-! ## All four passes -/

/-- The admission of the lowest `n` layers. -/
def admitLowest (n total : Nat) (walls : Table Wall) : Nat × Table Wall :=
  (List.range n).foldl (fun a i => admitAcross (i + 1) a.1 a.2) (total, walls)

theorem admitAll_eq (total : Nat) (walls : Table Wall) : admitAll total walls = admitLowest 4 total walls := rfl

theorem admitLowest_succ (n total : Nat) (walls : Table Wall) :
    admitLowest (n + 1) total walls =
      admitAcross (n + 1) (admitLowest n total walls).1 (admitLowest n total walls).2 := by
  simp only [admitLowest, List.range_succ, List.foldl_append, List.foldl_cons, List.foldl_nil]

/-- The pixel passes of the lowest `n` layers of all walls. -/
def admittedBelow (n : Nat) (walls : Table Wall) : Nat := ((List.range n).map (fun i => admittedAt (i + 1) walls)).sum

theorem admittedBelow_succ (n : Nat) (walls : Table Wall) :
    admittedBelow (n + 1) walls = admittedBelow n walls + admittedAt (n + 1) walls := by
  simp only [admittedBelow, List.range_succ, List.map_append, List.sum_append, List.map_cons, List.map_nil,
    List.sum_singleton]

theorem admittedBelow_admitAcross {n layer total : Nat} (above : n < layer) (top : layer ≤ 4) (walls : Table Wall) :
    admittedBelow n (admitAcross layer total walls).2 = admittedBelow n walls := by
  refine congrArg List.sum (List.map_congr_left fun i mem => congrArg List.sum ?_)
  have lower := List.mem_range.mp mem
  exact admitAcross_map (Wall.passes (i + 1))
    (fun x f a hf => Wall.passes_withOutcome_other hf (by omega) (by omega)) walls

theorem admitLowest_le (n : Nat) {total : Nat} (walls : Table Wall) (h : total ≤ passLimit) :
    (admitLowest n total walls).1 ≤ passLimit := by
  induction n with
  | zero => exact h
  | succ n ih =>
    rw [admitLowest_succ]
    exact admitAcross_le _ ih

theorem admitLowest_areas (n total : Nat) (walls : Table Wall) :
    (admitLowest n total walls).2.map (fun e => e.2.area) = walls.map (fun e => e.2.area) := by
  induction n with
  | zero => rfl
  | succ n ih =>
    rw [admitLowest_succ, admitAcross_map Wall.area fun _ _ _ _ => rfl]
    exact ih

/-- R91: the total, and the outcome of each layer after the layers below it. -/
theorem admitLowest_spec {n : Nat} (top : n ≤ 4) (total : Nat) (walls : Table Wall) :
    (admitLowest n total walls).1 = total + admittedBelow n (admitLowest n total walls).2 ∧
      ∀ i, i < n → admissionFollows (i + 1) (total + admittedBelow i (admitLowest n total walls).2)
        (admitLowest n total walls).2 := by
  induction n with
  | zero => exact ⟨rfl, fun i none => absurd none (Nat.not_lt_zero i)⟩
  | succ n ih =>
    obtain ⟨sum, outcomes⟩ := ih (by omega)
    have bottom : 1 ≤ n + 1 := Nat.le_add_left 1 n
    rw [admitLowest_succ]
    refine ⟨?_, fun i lower => ?_⟩
    · rw [admitAcross_total bottom top, admittedBelow_succ, admittedBelow_admitAcross n.lt_succ_self top,
        ← Nat.add_assoc, ← sum]
    · rw [admittedBelow_admitAcross lower top]
      by_cases last : i = n
      · rw [last, ← sum]
        exact admitAcross_follows bottom top _
      · exact admitAcross_keeps_follows bottom top (Nat.le_add_left 1 i) (by omega) _ (outcomes i (by omega))

/-! ## The frame's pixel passes, wall by wall -/

theorem toList_four {α : Type} (v : Vector α 4) (d : α) : v.toList = [at_ v 0 d, at_ v 1 d, at_ v 2 d, at_ v 3 d] := by
  obtain ⟨⟨l⟩, size⟩ := v
  match l, size with
  | [_, _, _, _], _ => rfl

/-- The pixel passes of a wall's layers in the frame. -/
def Wall.allPasses (x : Wall) : Nat :=
  match x.frame with
  | none => 0
  | some f => (f.layers.toList.map (fun l => if l.admission = .admitted then l.visible else 0)).sum

theorem Wall.allPasses_eq (x : Wall) :
    x.allPasses = x.passes 1 + x.passes 2 + x.passes 3 + x.passes 4 := by
  unfold Wall.allPasses Wall.passes
  cases x.frame with
  | none => rfl
  | some f =>
    dsimp only
    rw [toList_four f.layers FrameLayer.none_]
    simp only [List.map_cons, List.map_nil, List.sum_cons, List.sum_nil, Nat.add_assoc, Nat.add_zero]

theorem sum_allPasses (walls : Table Wall) : (walls.map (fun e => e.2.allPasses)).sum = admittedBelow 4 walls := by
  simp only [Wall.allPasses_eq, List.sum_map_add, admittedBelow_succ]
  exact congrArg (· + _ + _ + _) (Nat.zero_add _).symm

end Sys2Proof.Machine
end

section
/-! PROOF. The admission within the load budget, and shedding (O38). -/

namespace Sys2Proof.Machine

/-! ## Shedding, R92 -/

theorem Wall.mem_shedLayers {x : Wall} {l : Nat} :
    l ∈ x.shedLayers ↔ 1 ≤ l ∧ l ≤ 4 ∧ ∃ f, x.frame = some f ∧
      (at_ f.layers (l - 1) FrameLayer.none_).admission = .shed := by
  unfold Wall.shedLayers
  cases x.frame with
  | none => simp only [List.not_mem_nil, reduceCtorEq, false_and, exists_false, and_false]
  | some f =>
    have layer : l ∈ [1, 2, 3, 4] ↔ 1 ≤ l ∧ l ≤ 4 := by
      simp only [List.mem_cons, List.not_mem_nil, or_false]
      omega
    simp only [List.mem_filter, layer, decide_eq_true_eq, Option.some.injEq, exists_eq_left', and_assoc]

theorem Wall.shedLayers_rise (x : Wall) : x.shedLayers.Pairwise (· < ·) := by
  unfold Wall.shedLayers
  cases x.frame with
  | none => exact .nil
  | some f => exact .filter _ (by decide)

/-- The lowest shed layer stands first. -/
theorem Wall.shedLayers_head {x : Wall} {l first : Nat} {more : List Nat} (layers : x.shedLayers = first :: more)
    (shed : l ∈ x.shedLayers) (lowest : ∀ k, k < l → k ∉ x.shedLayers) : first = l := by
  have rise := layers ▸ x.shedLayers_rise
  have found : first ∈ x.shedLayers := layers ▸ List.mem_cons_self
  rw [layers] at shed
  rcases List.mem_cons.mp shed with same | later
  · exact same.symm
  · exact absurd found (lowest first (List.rel_of_pairwise_cons rise later))

section Shedding

variable {w : Nat} {x : Wall} {s : State} (hx : s.wall w = some x)
include hx

theorem settleShedding_quiet (h : x.shedding = true ∨ x.shedLayers = []) :
    settleShedding w s = modWall w (fun y => y.setShed (!x.shedLayers.isEmpty)) s := by
  unfold settleShedding
  rw [hx]
  dsimp only
  split
  · rename_i sheds layers
    rcases h with already | none
    · exact absurd already (by rw [sheds]; decide)
    · exact absurd (none.symm.trans layers) (List.cons_ne_nil _ _).symm
  · rfl

theorem settleShedding_starts {first : Nat} {more : List Nat} (new : x.shedding = false)
    (layers : x.shedLayers = first :: more) :
    settleShedding w s = raise .loadShed [.u2 w, .u2 first, .u2 x.shedLayers.length, .u2 s.wse.total]
      (modWall w (fun y => y.setShed (!x.shedLayers.isEmpty)) s) := by
  simp only [settleShedding, hx, new, layers, List.length_cons]

/-- The wall's record is written, and a notice may be raised. -/
theorem settleShedding_cases :
    ∃ lkd, settleShedding w s = (modWall w (fun y => y.setShed (!x.shedLayers.isEmpty)) s).setLkd lkd := by
  cases new : x.shedding with
  | true => exact ⟨s.lkd, settleShedding_quiet hx (.inl new)⟩
  | false =>
    cases layers : x.shedLayers with
    | nil => exact ⟨s.lkd, layers ▸ settleShedding_quiet hx (.inr layers)⟩
    | cons first more => exact ⟨_, layers ▸ settleShedding_starts hx new layers⟩

theorem settleShedding_wall (v : Nat) :
    (settleShedding w s).wall v = if v = w then some (x.setShed (!x.shedLayers.isEmpty)) else s.wall v := by
  obtain ⟨lkd, e⟩ := settleShedding_cases hx
  rw [e]
  refine (modWall_wall s w v _).trans ?_
  split
  · rename_i same
    rw [same, hx]
    rfl
  · rfl

theorem settleShedding_frame :
    settleShedding w s =
      { s with wse := { s.wse with walls := (settleShedding w s).wse.walls }, lkd := (settleShedding w s).lkd } := by
  obtain ⟨lkd, e⟩ := settleShedding_cases hx
  rw [e]
  rfl

end Shedding

/-- R92: a layer that was not admitted offers nothing. -/
theorem offer_unadmitted {s : State} {w layer px py : Nat} {l : FrameLayer} (h : l.admission ≠ .admitted) :
    s.offer w layer l px py = none := by
  unfold State.offer
  split
  · rename_i admitted _ _
    exact absurd admitted h
  · rfl

/-! ## The admission of a boundary, R91 -/

theorem settleFrames_areas (s : State) : (settleFrames s).areas = s.areas := by
  refine congrArg List.sum ((admitLowest_areas 4 _ _).trans ?_)
  rw [List.map_map]
  rfl

theorem settleFrames_spec (s : State) :
    (settleFrames s).wse.total = s.areas + admittedBelow 4 (settleFrames s).wse.walls ∧
      ∀ i, i < 4 → admissionFollows (i + 1) (s.areas + admittedBelow i (settleFrames s).wse.walls)
        (settleFrames s).wse.walls := admitLowest_spec (Nat.le_refl 4) _ _

theorem FrameParams.lowerShed_iff (f : FrameParams) (layer : Nat) :
    f.lowerShed layer = true ↔
      1 < layer ∧ (at_ f.layers (layer - 2) FrameLayer.none_).admission = .shed := by
  simp only [FrameParams.lowerShed, Bool.and_eq_true, decide_eq_true_eq]

/-- Settles O38: shedding as one wall's record gives it, and the outcomes and the total after the four passes. -/
theorem admissionWithinLoadBudget : Obligations.AdmissionWithinLoadBudget := by
  unfold Obligations.AdmissionWithinLoadBudget
  refine ⟨?_, fun w layer px py l s => offer_unadmitted, ?_⟩
  · intro w x s hx t shed
    refine ⟨fun l => Wall.mem_shedLayers, (settleShedding_wall hx w).trans (if_pos rfl),
      fun v other => (settleShedding_wall hx v).trans (if_neg other), fun quiet => ?_, fun l new isShed lowest => ?_,
      settleShedding_frame hx⟩
    · rw [show t = _ from settleShedding_quiet hx quiet]
      rfl
    · have mem : l ∈ x.shedLayers := Wall.mem_shedLayers.mpr isShed
      cases layers : x.shedLayers with
      | nil => exact absurd (layers ▸ mem) List.not_mem_nil
      | cons first more =>
        have head : first = l :=
          Wall.shedLayers_head layers mem fun k lower => mt Wall.mem_shedLayers.mp (lowest k lower)
        rw [← head, ← layers, show t = _ from settleShedding_starts hx new layers]
        rfl
  · intro s areas t
    obtain ⟨total, outcomes⟩ := settleFrames_spec s
    refine ⟨admitLowest_le 4 _ (areas.trans (by decide)), settleFrames_areas s, ?_, ?_⟩
    · exact total.trans (congrArg (s.areas + ·) (sum_allPasses _).symm)
    · intro admitted before later w x f l walls hf bottom top k total
      have outcome := outcomes (l - 1) (by omega)
      rw [Nat.sub_add_cancel bottom] at outcome
      refine (outcome.at walls hf).trans ((admitLayer_outcome _ _ _).trans ?_)
      exact if_congr (f.lowerShed_iff l) rfl rfl

end Sys2Proof.Machine
end

section
/-! PROOF. Layer blending on one component, and the composition of four layers (O42). -/

namespace Sys2Proof.Machine

/-! ## One component -/

/-- A rising component comes nearer by the opacity's share of the distance; `dim` is that share. -/
theorem blend_rises {acc sample : Nat} (a : Nat) (h : acc ≤ sample) :
    blend acc sample a = acc + dim (sample - acc) a := if_pos h

theorem blend_falls {acc sample : Nat} (a : Nat) (h : sample < acc) :
    blend acc sample a = acc - dim (acc - sample) a := if_neg (Nat.not_le.mpr h)

theorem blend_between (acc sample : Nat) {a : Nat} (opacity : a ≤ 65535) :
    min acc sample ≤ blend acc sample a ∧ blend acc sample a ≤ max acc sample := by
  rcases Nat.lt_or_ge sample acc with falls | rises
  · have share := dim_le (acc - sample) opacity
    rw [blend_falls a falls]
    omega
  · have share := dim_le (sample - acc) opacity
    rw [blend_rises a rises]
    omega

theorem blend_le {acc sample a limit : Nat} (opacity : a ≤ 65535) (hacc : acc ≤ limit) (hsample : sample ≤ limit) :
    blend acc sample a ≤ limit := (blend_between acc sample opacity).2.trans (max_le hacc hsample)

theorem blend_opaque (acc sample : Nat) : blend acc sample 65535 = sample := by
  rcases Nat.lt_or_ge sample acc with falls | rises
  · rw [blend_falls _ falls, dim_full, Nat.sub_sub_self falls.le]
  · rw [blend_rises _ rises, dim_full, Nat.add_sub_cancel' rises]

theorem blend_self (acc a : Nat) : blend acc acc a = acc := by
  rw [blend_rises a (Nat.le_refl acc), dim, Nat.sub_self, Nat.zero_mul, Nat.zero_div, Nat.add_zero]

/-! ## What is never admitted -/

/-- R79: a layer of opacity 0 is not active. -/
theorem admitLayer_opacity_zero (total : Nat) (lowerShed : Bool) {l : FrameLayer} (h : l.opacity = 0) :
    (admitLayer total lowerShed l).2 = if lowerShed = true then .shed else .inactive :=
  (admitLayer_outcome total lowerShed l).trans (if_congr Iff.rfl rfl (if_pos (.inr h)))

/-! ## The four layers -/

theorem rgbInRange_iff (c : Rgb) : rgbInRange c = true ↔ c.r ≤ 1023 ∧ c.g ≤ 1023 ∧ c.b ≤ 1023 := by
  simp only [rgbInRange, Bool.and_eq_true, decide_eq_true_eq, and_assoc]

section Compose

variable {s : State} {w x y : Nat}

theorem offer_inRange {layer : Nat} {l : FrameLayer} {c : Rgb} (h : s.offer w layer l x y = some c) :
    rgbInRange c = true := by
  unfold State.offer at h
  split at h
  · split at h
    · obtain ⟨b, _, rfl⟩ := Option.map_eq_some_iff.mp h
      obtain ⟨r, g, b⟩ := rgbOf_lt _
      exact (rgbInRange_iff _).mpr ⟨Nat.le_of_lt_succ r, Nat.le_of_lt_succ g, Nat.le_of_lt_succ b⟩
    · cases h
  · cases h

theorem blendLayer_offer_inRange {layer : Nat} {l : FrameLayer} {acc : Rgb} (opacity : l.opacity ≤ 65535)
    (inRange : rgbInRange acc = true) :
    rgbInRange (blendLayer l.opacity acc (s.offer w layer l x y)) = true := by
  cases offered : s.offer w layer l x y with
  | none => exact inRange
  | some c =>
    obtain ⟨accR, accG, accB⟩ := (rgbInRange_iff acc).mp inRange
    obtain ⟨r, g, b⟩ := (rgbInRange_iff c).mp (offer_inRange offered)
    exact (rgbInRange_iff _).mpr ⟨blend_le opacity accR r, blend_le opacity accG g, blend_le opacity accB b⟩

theorem composeFrom_inRange {layers : List FrameLayer} (opacities : ∀ l ∈ layers, l.opacity ≤ 65535) (layer : Nat)
    {acc : Rgb} (inRange : rgbInRange acc = true) : rgbInRange (s.composeFrom w x y layer layers acc) = true := by
  induction layers generalizing layer acc with
  | nil => exact inRange
  | cons l rest ih =>
    obtain ⟨opacity, others⟩ := List.forall_mem_cons.mp opacities
    exact ih others (layer + 1) (blendLayer_offer_inRange opacity inRange)

end Compose

/-- Settles O42: each step of the accumulator is `blendLayer`, and `composeFrom` is four of them. -/
theorem blendRule : Obligations.BlendRule := by
  unfold Obligations.BlendRule
  refine ⟨fun acc sample a opacity => ?_, fun total lowerShed l transparent => ?_,
    fun s w n x y l => offer_unadmitted, fun s w x y background l1 l2 l3 l4 => ?_⟩
  · obtain ⟨low, high⟩ := blend_between acc sample opacity
    exact ⟨blend_rises a, blend_falls a, low, high, blend_le opacity, blend_opaque acc sample, blend_self acc a⟩
  · rw [admitLayer_opacity_zero total lowerShed transparent]
    cases lowerShed <;> decide
  · intro laid composed
    have steps : composed = laid 4 l4 (laid 3 l3 (laid 2 l2 (laid 1 l1 background))) := rfl
    have passed {n : Nat} {l : FrameLayer} (acc : Rgb) (nothing : s.offer w n l x y = none) : laid n l acc = acc := by
      simp only [laid, nothing]
    refine ⟨steps, fun first second third fourth => ?_, fun opacities r g b => ?_⟩
    · rw [steps, passed _ fourth, passed _ third, passed _ second, passed _ first]
    · exact (rgbInRange_iff _).mp (composeFrom_inRange opacities 1 ((rgbInRange_iff _).mpr ⟨r, g, b⟩))

end Sys2Proof.Machine
end

section
/-! SUPPORT. What writes nothing but the outputs of channels and the marks that they make on fixtures, R143 and R161. -/

namespace Sys2Proof.Machine

theorem Table.mem_of_find {α : Type} {k : Nat} {x : α} {t : Table α} (h : t.find k = some x) : (k, x) ∈ t := by
  induction t with
  | nil => cases h
  | cons e rest ih =>
    obtain ⟨j, y⟩ := e
    rw [Table.find] at h
    split at h
    · rename_i same
      cases h
      exact same ▸ List.mem_cons_self
    · exact List.mem_cons_of_mem _ (ih h)

/-! ## Marked fixtures -/

/-- A fixture's id is in a port's transmit queue or in its dirty set. -/
def State.marked (s : State) (p : Port) (id : Nat) : Prop :=
  (s.port p).isQueued id = true ∨ (s.port p).isDirty id = true

/-- A fixture is fed from a channel of its run. -/
def Fixture.fedFrom (f : Fixture) (c : Nat) : Prop := f.first ≤ c ∧ c < f.first + f.count

/-- `t` is `s` but for its channels and its two ports, and no mark is gone. -/
structure State.onlyOutputs (s t : State) : Prop where
  frame : ∃ channels portA portB, t = { s with
    lvp := { s.lvp with channels := channels }, fbc := { s.fbc with portA := portA, portB := portB } }
  marks : ∀ p id, s.marked p id → t.marked p id

namespace State.onlyOutputs

variable {s t u : State}

theorem refl (s : State) : s.onlyOutputs s := ⟨⟨_, _, _, rfl⟩, fun _ _ => id⟩

theorem trans (h : s.onlyOutputs t) (h' : t.onlyOutputs u) : s.onlyOutputs u := by
  obtain ⟨⟨_, _, _, rfl⟩, marks⟩ := h
  obtain ⟨⟨channels, portA, portB, rfl⟩, marks'⟩ := h'
  exact ⟨⟨channels, portA, portB, rfl⟩, fun p id old => marks' p id (marks p id old)⟩

theorem foldl {β : Type} {f : State → β → State} (h : ∀ s b, State.onlyOutputs s (f s b)) (l : List β) (s : State) :
    s.onlyOutputs (l.foldl f s) := by
  induction l generalizing s with
  | nil => exact refl s
  | cons b rest ih => exact (h s b).trans (ih (f s b))

theorem fixtures (h : s.onlyOutputs t) : t.fbc.fixtures = s.fbc.fixtures := by
  obtain ⟨⟨_, _, _, rfl⟩, _⟩ := h
  rfl

theorem targets (h : s.onlyOutputs t) : t.lvp.targets = s.lvp.targets := by
  obtain ⟨⟨_, _, _, rfl⟩, _⟩ := h
  rfl

theorem fades (h : s.onlyOutputs t) : t.lvp.fades = s.lvp.fades := by
  obtain ⟨⟨_, _, _, rfl⟩, _⟩ := h
  rfl

theorem wse (h : s.onlyOutputs t) : t.wse = s.wse := by
  obtain ⟨⟨_, _, _, rfl⟩, _⟩ := h
  rfl

theorem eq (h : s.onlyOutputs t) : t = { s with lvp := t.lvp, fbc := t.fbc } := by
  obtain ⟨⟨_, _, _, rfl⟩, _⟩ := h
  rfl

theorem level (h : s.onlyOutputs t) (n : Nat) : t.level n = s.level n := by
  rw [State.level, h.targets]
  rfl

end State.onlyOutputs

variable {s : State}

/-! ## Marks, R161 -/

theorem setPort_mark_onlyOutputs (p : Port) (id : Nat) : s.onlyOutputs (setPort p ((s.port p).mark id) s) where
  frame := by cases p <;> exact ⟨_, _, _, rfl⟩
  marks o j old := by
    rw [State.marked, port_setPort]
    split
    · rename_i same
      exact BusPort.mark_keeps _ id j (same ▸ old)
    · exact old

theorem markDirty_onlyOutputs (id : Nat) : s.onlyOutputs (markDirty id s) := by
  unfold markDirty
  split
  · exact .refl s
  · exact setPort_mark_onlyOutputs _ id

theorem markDirty_marks {id : Nat} {f : Fixture} (found : s.fbc.fixtures.find id = some f) :
    (markDirty id s).marked f.port id := by
  have marking : markDirty id s = setPort f.port ((s.port f.port).mark id) s := by simp only [markDirty, found]
  rw [marking, State.marked, port_setPort, if_pos rfl]
  exact BusPort.mark_marked _ id

/-- R143: one fixture's share in marking those fed from a channel. -/
def markIfFed (c : Nat) (s : State) (e : Nat × Fixture) : State :=
  if e.2.first ≤ c ∧ c < e.2.first + e.2.count then markDirty e.1 s else s

theorem markChannel_eq_foldl (c : Nat) (s : State) : markChannel c s = s.fbc.fixtures.foldl (markIfFed c) s := rfl

theorem markIfFed_fed {c : Nat} {s : State} {e : Nat × Fixture} (fed : e.2.fedFrom c) :
    markIfFed c s e = markDirty e.1 s := if_pos fed

theorem markIfFed_onlyOutputs (c : Nat) (s : State) (e : Nat × Fixture) : s.onlyOutputs (markIfFed c s e) := by
  unfold markIfFed
  split
  · exact markDirty_onlyOutputs e.1
  · exact .refl s

theorem markChannel_onlyOutputs (c : Nat) : s.onlyOutputs (markChannel c s) :=
  .foldl (markIfFed_onlyOutputs c) s.fbc.fixtures s

/-- The fixture's own turn marks it, and the turns before and after it leave the table and take no mark back. -/
theorem markChannel_marks {c id : Nat} {f : Fixture} (found : s.fbc.fixtures.find id = some f) (fed : f.fedFrom c) :
    (markChannel c s).marked f.port id := by
  obtain ⟨before, later, split⟩ := List.append_of_mem (Table.mem_of_find found)
  rw [markChannel_eq_foldl, split, List.foldl_append, List.foldl_cons]
  have earlier := State.onlyOutputs.foldl (markIfFed_onlyOutputs c) before s
  refine (State.onlyOutputs.foldl (markIfFed_onlyOutputs c) later _).marks _ _ ?_
  rw [markIfFed_fed fed]
  exact markDirty_marks (earlier.fixtures ▸ found)

/-! ## Recomputed channels, R143 -/

theorem putChannel_onlyOutputs (c : Nat) (ch : Channel) : s.onlyOutputs (putChannel c ch s) :=
  ⟨⟨_, _, _, rfl⟩, fun _ _ => id⟩

theorem recompute_onlyOutputs (c : Nat) : s.onlyOutputs (recompute c s) := by
  unfold recompute
  dsimp only
  split
  · exact putChannel_onlyOutputs c _
  · exact (putChannel_onlyOutputs c _).trans (markChannel_onlyOutputs c)

/-- R143: a channel whose output changes marks every fixture fed from it. -/
theorem recompute_marks {c id : Nat} {f : Fixture} (number : c < 768) (found : s.fbc.fixtures.find id = some f)
    (fed : f.fedFrom c) (changed : ((recompute c s).channel c).output ≠ (s.channel c).output) :
    (recompute c s).marked f.port id := by
  rw [channel_recompute c c s number, if_pos rfl] at changed
  simp only [recompute, changed, if_false]
  exact markChannel_marks (s := putChannel c _ s) found fed

end Sys2Proof.Machine
end

section
/-! PROOF. The zone-complete event (O46). -/

namespace Sys2Proof.Machine

/-! ## One channel, R142 and R143 -/

/-- The channel after the averages of zone `z`, with its fade level and the lighting master. -/
def Channel.afterZone (ch : Channel) (z : Nat) (avg : Averages) (fadeLevel master : Nat) : Channel :=
  if ch.mode ≠ .fade ∧ ch.zone = z ∧ ch.track avg ≠ ch.tracked then
    { ch with tracked := ch.track avg }.compute fadeLevel master
  else ch

namespace Channel

variable (ch : Channel) (z : Nat) (avg : Averages) (fadeLevel master : Nat)

theorem afterZone_tracked :
    (ch.afterZone z avg fadeLevel master).tracked =
      if ch.mode ≠ .fade ∧ ch.zone = z then ch.track avg else ch.tracked := by
  by_cases tracks : ch.mode ≠ .fade ∧ ch.zone = z
  · by_cases same : ch.track avg = ch.tracked
    · rw [afterZone, if_neg (fun moves => moves.2.2 same), if_pos tracks, same]
    · rw [afterZone, if_pos ⟨tracks.1, tracks.2, same⟩, if_pos tracks]
      rfl
  · rw [afterZone, if_neg (fun moves => tracks ⟨moves.1, moves.2.1⟩), if_neg tracks]

/-- R141: of a channel that is not in FADE. -/
theorem mixOf_tracking {ch : Channel} (tracks : ch.mode ≠ .fade) :
    ch.mixOf fadeLevel = if ch.mode = .track then ch.tracked else min 65535 (fadeLevel + ch.tracked) := by
  cases mode : ch.mode with
  | fade => exact absurd mode tracks
  | track => simp only [mixOf, mode, if_true]
  | sum => simp only [mixOf, mode, reduceCtorEq, if_false]

/-- The new tracked level says whether anything changed, and what the rest of the channel is. -/
theorem eq_of_afterZone {new : Channel} (h : new = ch.afterZone z avg fadeLevel master) :
    let mix := if ch.mode = .track then new.tracked else min 65535 (fadeLevel + new.tracked)
    new =
      if new.tracked = ch.tracked then ch
      else { ch with
        tracked := new.tracked, mix := mix, output := mix * master / 65535
        sat := ch.sat || decide (ch.mode = .sum ∧ 65535 < fadeLevel + new.tracked) } := by
  subst h
  by_cases moves : ch.mode ≠ .fade ∧ ch.zone = z ∧ ch.track avg ≠ ch.tracked
  · have ⟨tracks, _, changes⟩ := moves
    have mix := mixOf_tracking fadeLevel (ch := { ch with tracked := ch.track avg }) tracks
    rw [afterZone, if_pos moves]
    simp only [compute, changes, mix, clips, Bool.decide_and, if_false]
  · rw [afterZone, if_neg moves]
    exact (if_pos rfl).symm

end Channel

/-! ## The channels by number, R142 -/

section Track

variable {s : State} (z : Nat) (avg : Averages)

theorem trackChannel_onlyOutputs (c : Nat) : s.onlyOutputs (trackChannel z avg c s) := by
  unfold trackChannel
  dsimp only
  split
  · exact (putChannel_onlyOutputs c _).trans (recompute_onlyOutputs c)
  · exact .refl s

theorem channel_trackChannel (c : Nat) {j : Nat} (number : j < 768) :
    (trackChannel z avg c s).channel j =
      if j = c then (s.channel c).afterZone z avg (s.level c) (s.level masterTarget) else s.channel j := by
  unfold trackChannel Channel.afterZone
  dsimp only
  split
  · rw [channel_recompute _ _ _ number]
    split
    · rename_i same
      rw [channel_putChannel _ _ _ _ (same ▸ number), if_pos rfl]
      rfl
    · rename_i other
      rw [channel_putChannel _ _ _ _ number, if_neg other]
  · split
    · rename_i same
      rw [same]
    · rfl

theorem trackChannel_marks {c id : Nat} {f : Fixture} (number : c < 768) (found : s.fbc.fixtures.find id = some f)
    (fed : f.fedFrom c) (changed : ((trackChannel z avg c s).channel c).output ≠ (s.channel c).output) :
    (trackChannel z avg c s).marked f.port id := by
  unfold trackChannel at changed ⊢
  dsimp only at changed ⊢
  split at changed
  · rename_i moves
    rw [if_pos moves]
    refine recompute_marks number found fed ?_
    rw [channel_putChannel _ _ _ _ number, if_pos rfl]
    exact changed
  · exact absurd rfl changed

/-- The channels below `n` have taken the averages of the zone. -/
def State.trackedBelow (z : Nat) (avg : Averages) (s : State) (n : Nat) : State :=
  (List.range n).foldl (fun t c => trackChannel z avg c t) s

theorem trackZone_eq_trackedBelow (s : State) : trackZone z avg s = s.trackedBelow z avg 768 := rfl

theorem State.trackedBelow_succ (s : State) (n : Nat) :
    s.trackedBelow z avg (n + 1) = trackChannel z avg n (s.trackedBelow z avg n) := by
  rw [trackedBelow, List.range_succ, List.foldl_append]
  rfl

theorem State.trackedBelow_onlyOutputs (n : Nat) : s.onlyOutputs (s.trackedBelow z avg n) :=
  .foldl (fun _ c => trackChannel_onlyOutputs z avg c) _ s

theorem State.channel_trackedBelow (n : Nat) {c : Nat} (number : c < 768) :
    (s.trackedBelow z avg n).channel c =
      if c < n then (s.channel c).afterZone z avg (s.level c) (s.level masterTarget) else s.channel c := by
  induction n with
  | zero => rfl
  | succ n ih =>
    have before := trackedBelow_onlyOutputs (s := s) z avg n
    rw [trackedBelow_succ, channel_trackChannel z avg n number, before.level, before.level]
    rcases Nat.lt_trichotomy c n with below | rfl | above
    · rw [if_neg below.ne, ih, if_pos below, if_pos (Nat.lt_succ_of_lt below)]
    · rw [if_pos rfl, ih, if_neg (Nat.lt_irrefl c), if_pos (Nat.lt_succ_self c)]
    · rw [if_neg above.ne', ih, if_neg (Nat.not_lt.mpr above.le), if_neg (Nat.not_lt.mpr above)]

/-- A mark is made at its channel's turn and kept; a channel that had no turn has its old output. -/
theorem State.trackedBelow_marks (n : Nat) {c id : Nat} {f : Fixture} (number : c < 768)
    (found : s.fbc.fixtures.find id = some f) (fed : f.fedFrom c)
    (changed : ((s.trackedBelow z avg n).channel c).output ≠ (s.channel c).output) :
    (s.trackedBelow z avg n).marked f.port id := by
  induction n with
  | zero => exact absurd rfl changed
  | succ n ih =>
    rw [trackedBelow_succ] at changed ⊢
    by_cases already : ((s.trackedBelow z avg n).channel c).output = (s.channel c).output
    · have turn : c = n := by
        by_contra other
        rw [channel_trackChannel z avg n number, if_neg other] at changed
        exact changed already
      subst turn
      exact trackChannel_marks z avg number ((trackedBelow_onlyOutputs z avg c).fixtures.symm ▸ found) fed
        (already ▸ changed)
    · exact (trackChannel_onlyOutputs z avg n).marks _ _ (ih already)

end Track

/-! ## The event, R106 -/

theorem Zone.due_iff (z : Zone) :
    z.due = true ↔ z.measuring = true ∧ z.raised = false ∧ z.taken = z.rect.width * z.rect.height := by
  simp only [Zone.due, Bool.and_eq_true, Bool.not_eq_true', decide_eq_true_eq, and_assoc]

theorem exec_zoneComplete (id : Nat) (s : State) : exec (.zoneComplete id) s = .next (completeZone id s) := rfl

/-- The zone has its averages, under the number of the frame. -/
def State.withAverages (id : Nat) (z : Zone) (s : State) : State :=
  s.setWse { s.wse with
    zones := s.wse.zones.insert id { z with
      last := some z.averages, lastFrame := some s.rtu.counter, raised := true } }

theorem completeZone_due {id : Nat} {z : Zone} {s : State} (found : s.wse.zones.find id = some z)
    (due : z.due = true) : completeZone id s = (s.withAverages id z).trackedBelow id z.averages 768 := by
  rw [← trackZone_eq_trackedBelow]
  simp only [completeZone, found, due, if_true, State.withAverages]

theorem completeZone_notDue {id : Nat} {z : Zone} {s : State} (found : s.wse.zones.find id = some z)
    (notDue : ¬z.due = true) : completeZone id s = s := by
  simp only [completeZone, found, notDue, Bool.false_eq_true, if_false]

/-- Settles O46: the event writes the zone and has the channels track it, each by `Channel.afterZone`. -/
theorem zoneCompletes : Obligations.ZoneCompletes := by
  unfold Obligations.ZoneCompletes
  intro id z s found
  refine ⟨?_, ?_⟩
  · intro measuring fresh whole n avg
    have only := State.trackedBelow_onlyOutputs (s := s.withAverages id z) id avg 768
    have channel {c : Nat} (number : c < 768) :=
      (State.channel_trackedBelow (s := s.withAverages id z) id avg 768 number).trans (if_pos number)
    refine ⟨(s.withAverages id z).trackedBelow id avg 768, ?_, only.wse, ?_, ?_, ?_, only.fixtures, only.targets,
      only.fades, ?_⟩
    · rw [exec_zoneComplete, completeZone_due found (z.due_iff.mpr ⟨measuring, fresh, whole⟩)]
      rfl
    · intro c number ch target
      exact (congrArg Channel.tracked (channel number)).trans (Channel.afterZone_tracked _ _ _ _ _)
    · intro c number ch tracked mix
      exact Channel.eq_of_afterZone _ _ _ _ _ (channel number)
    · rintro i f fixture ⟨c, number, first, last, changed⟩
      exact State.trackedBelow_marks id avg 768 number fixture ⟨first, last⟩ changed
    · exact only.eq.trans (by rw [only.wse]; rfl)
  · intro notDue
    rw [exec_zoneComplete, completeZone_notDue found]
    intro due
    obtain ⟨measuring, fresh, whole⟩ := z.due_iff.mp due
    rcases notDue with idle | raised | short
    · exact Bool.false_ne_true (idle.symm.trans measuring)
    · exact Bool.false_ne_true (fresh.symm.trans raised)
    · exact short whole

end Sys2Proof.Machine
end

section
/-! PROOF. STANDBY, GO, GO CUE, CANCEL GO, HOLD, RELEASE and STEP (O48). -/

namespace Sys2Proof.Machine

/-! ## What the handlers answer, check by check -/

theorem Table.not_has_iff {α : Type} (k : Nat) (t : Table α) : (!t.has k) = true ↔ t.find k = none := by
  rw [Table.has, Bool.not_eq_true', Option.isSome_eq_false_iff, Option.isNone_iff_eq_none]

section Handlers

variable (n : Nat) (s : State)

theorem standby_eq :
    standby n s =
      if n = 0 then refuse .range s
      else if s.cue.cues.find n = none then refuse .noSuch s
      else .reply .ok [.u2 n] (s.setCue { s.cue with standby := some n }) := by
  simp only [standby, checked_cons, checked_nil, decide_eq_true_eq, Table.not_has_iff]

theorem go_unarmed (unarmed : s.cue.standby = none) : go s = refuse .noSuch s := by
  simp only [go, unarmed]

theorem go_armed {k : Nat} (armed : s.cue.standby = some k) :
    go s =
      if s.cue.pending ≠ none then refuse .busy s
      else .reply .ok [.u2 k] (s.setCue { s.cue with pending := some (k, .go) }) := by
  cases waiting : s.cue.pending <;> simp only [go, armed, waiting] <;> rfl

theorem goCue_eq :
    goCue n s =
      if n = 0 then refuse .range s
      else if s.cue.cues.find n = none then refuse .noSuch s
      else if s.cue.pending ≠ none then refuse .busy s
      else .reply .ok [] (s.setCue { s.cue with pending := some (n, .goCue) }) := by
  simp only [goCue, checked_cons, checked_nil, decide_eq_true_eq, Table.not_has_iff, Option.isSome_iff_ne_none]

theorem cancelGo_none (nothing : s.cue.pending = none) : cancelGo s = refuse .notPending s := by
  simp only [cancelGo, nothing]

theorem cancelGo_some {k : Nat} {src : AskSource} (waiting : s.cue.pending = some (k, src)) :
    cancelGo s = .reply .ok [.u2 k] (s.setCue { s.cue with pending := none }) := by
  simp only [cancelGo, waiting]

theorem holdCue_eq :
    holdCue s =
      if s.cue.hold = true then refuse .wrongState s
      else .reply .ok [.u1 1] (s.setCue { s.cue with hold := true }) := by
  simp only [holdCue, checked_cons, checked_nil]

theorem releaseCue_eq :
    releaseCue s =
      if s.cue.hold = false then refuse .wrongState s
      else .reply .ok [.u1 0, opt2 s.cue.step] (s.setCue { s.cue with hold := false, step := none }) := by
  simp only [releaseCue, checked_cons, checked_nil, Bool.not_eq_true']

theorem stepCue_eq :
    stepCue n s =
      if n = 0 then refuse .range s
      else if s.cue.hold = false then refuse .wrongState s
      else if s.cue.step ≠ none then refuse .busy s
      else .reply .ok [.u2 (min 250 n)] (s.setCue { s.cue with step := some (min 250 n) }) := by
  simp only [stepCue, checked_cons, checked_nil, decide_eq_true_eq, Bool.not_eq_true', Option.isSome_iff_ne_none]

end Handlers

/-! ## The requests -/

/-- Settles O48: each handler, check by check, with the Link Dispatcher's reply around it. -/
theorem cueControlRequests : Obligations.CueControlRequests := by
  unfold Obligations.CueControlRequests
  intro tag n rest s
  refine ⟨fun h => ?standby, fun h => ⟨fun unarmed => ?unarmed, fun k armed => ?armed⟩, fun h => ?goCue,
    fun h => ⟨fun nothing => ?nothing, fun k src waiting => ?waiting⟩, fun h => ?hold, fun h => ?release,
    fun h => ?step⟩
  case standby =>
    exact congrArg _ (serve_refusedIf h (standby_eq n _) fun answer =>
      serve_refusedIf h answer fun answer => serve_ok _ _ _ _ _ _ _ _ h answer rfl)
  case unarmed => exact congrArg _ (serve_refused _ _ _ _ _ _ _ h (go_unarmed (s.atHead _ rest) unarmed))
  case armed =>
    rw [← ite_not]
    exact congrArg _ (serve_refusedIf h (go_armed (s.atHead _ rest) armed) fun answer =>
      serve_ok _ _ _ _ _ _ _ _ h answer rfl)
  case goCue =>
    exact congrArg _ (serve_refusedIf h (goCue_eq n _) fun answer =>
      serve_refusedIf h answer fun answer =>
        serve_refusedIf h answer fun answer => serve_ok _ _ _ _ _ _ _ _ h answer rfl)
  case nothing => exact congrArg _ (serve_refused _ _ _ _ _ _ _ h (cancelGo_none (s.atHead _ rest) nothing))
  case waiting => exact congrArg _ (serve_ok _ _ _ _ _ _ _ _ h (cancelGo_some (s.atHead _ rest) waiting) rfl)
  case hold =>
    exact congrArg _ (serve_refusedIf h (holdCue_eq _) fun answer => serve_ok _ _ _ _ _ _ _ _ h answer rfl)
  case release =>
    exact congrArg _ (serve_refusedIf h (releaseCue_eq _) fun answer => serve_ok _ _ _ _ _ _ _ _ h answer rfl)
  case step =>
    exact congrArg _ (serve_refusedIf h (stepCue_eq n _) fun answer =>
      serve_refusedIf h answer fun answer =>
        serve_refusedIf h answer fun answer => serve_ok _ _ _ _ _ _ _ _ h answer rfl)

end Sys2Proof.Machine
end

section
/-! SUPPORT. The due entries of an advance, R118: the wait entries that reach 0, in due order. -/

namespace Sys2Proof.Machine

/-! ## Insertion by remaining -/

section Insertion

variable (e : WaitEntry) (l : List WaitEntry)

theorem insertDue_perm : (insertDue e l).Perm (e :: l) := by
  induction l with
  | nil => exact .refl _
  | cons x rest ih =>
    unfold insertDue
    split
    · exact .refl _
    · exact (ih.cons x).trans (.swap e x rest)

/-- In due order: nothing stands before what is due sooner. -/
def inDueOrder (l : List WaitEntry) : Prop := l.Pairwise (fun d e => d.remaining ≤ e.remaining)

theorem insertDue_inDueOrder (ordered : inDueOrder l) : inDueOrder (insertDue e l) := by
  induction l with
  | nil => exact List.pairwise_singleton _ _
  | cons x rest ih =>
    obtain ⟨first, later⟩ := List.pairwise_cons.mp ordered
    unfold insertDue
    split
    · rename_i sooner
      refine List.pairwise_cons.mpr ⟨fun y mem => ?_, ordered⟩
      rcases List.mem_cons.mp mem with rfl | mem
      · exact Nat.le_of_lt sooner
      · exact le_trans (Nat.le_of_lt sooner) (first y mem)
    · rename_i notSooner
      refine List.pairwise_cons.mpr ⟨fun y mem => ?_, ih later⟩
      rcases List.mem_cons.mp ((insertDue_perm e rest).mem_iff.mp mem) with rfl | mem
      · exact Nat.not_lt.mp notSooner
      · exact first y mem

/-- The entries that have `r` frames to go, in the order in which they stand. -/
def remainingAt (r : Nat) (l : List WaitEntry) : List WaitEntry := l.filter (fun e => decide (e.remaining = r))

/-- An entry goes behind those that are due when it is. -/
theorem remainingAt_insertDue (r : Nat) (ordered : inDueOrder l) :
    remainingAt r (insertDue e l) = remainingAt r (l ++ [e]) := by
  induction l with
  | nil => rfl
  | cons x rest ih =>
    obtain ⟨first, later⟩ := List.pairwise_cons.mp ordered
    unfold insertDue
    split
    · rename_i sooner
      by_cases due : e.remaining = r
      · have none_due : remainingAt r (x :: rest) = [] := List.filter_eq_nil_iff.mpr fun y mem => by
          rcases List.mem_cons.mp mem with rfl | mem
          · simp only [decide_eq_true_eq]
            omega
          · have := first y mem
            simp only [decide_eq_true_eq]
            omega
        simp only [remainingAt, List.filter_append] at none_due ⊢
        rw [none_due, List.filter_cons, none_due]
        simp only [due, decide_true, if_true, List.filter_cons, List.filter_nil, List.nil_append]
      · simp only [remainingAt, List.filter_append, List.filter_cons, due, decide_false, Bool.false_eq_true, if_false,
          List.filter_nil, List.append_nil]
    · have behind := ih later
      simp only [remainingAt, List.cons_append, List.filter_cons] at behind ⊢
      rw [behind]

end Insertion

/-! ## The due entries -/

/-- The entries of `l` put into due order, one after the other, behind those of `sorted`. -/
theorem foldl_insertDue (l sorted : List WaitEntry) (ordered : inDueOrder sorted) :
    let all := l.foldl (fun l e => insertDue e l) sorted
    all.Perm (sorted ++ l) ∧ inDueOrder all ∧ ∀ r, remainingAt r all = remainingAt r (sorted ++ l) := by
  induction l generalizing sorted with
  | nil => exact ⟨by rw [List.append_nil]; exact .refl _, ordered, fun r => by rw [List.append_nil]; rfl⟩
  | cons e rest ih =>
    obtain ⟨perm, order, stable⟩ := ih (insertDue e sorted) (insertDue_inDueOrder e sorted ordered)
    have one : (insertDue e sorted ++ rest).Perm (sorted ++ e :: rest) :=
      ((insertDue_perm e sorted).append_right rest).trans List.perm_middle.symm
    refine ⟨perm.trans one, order, fun r => (stable r).trans ?_⟩
    have placed := remainingAt_insertDue e sorted r ordered
    rw [List.append_cons sorted e rest]
    simp only [remainingAt, List.filter_append _ rest] at placed ⊢
    rw [placed]

section Due

variable {a : Nat} (advances : 0 < a) (waits : List WaitEntry)
include advances

theorem dueEntries_spec :
    (dueEntries a waits).Perm (waits.filter (fun e => decide (e.remaining ≤ a))) ∧ inDueOrder (dueEntries a waits) ∧
      ∀ r, r ≤ a → remainingAt r (dueEntries a waits) = remainingAt r waits := by
  obtain ⟨perm, order, stable⟩ :=
    foldl_insertDue (waits.filter (fun e => decide (e.remaining ≤ a))) [] List.Pairwise.nil
  simp only [dueEntries, Nat.ne_of_gt advances, if_false]
  refine ⟨perm, order, fun r within => (stable r).trans ?_⟩
  rw [List.nil_append, remainingAt, List.filter_filter]
  refine List.filter_congr fun e _ => ?_
  by_cases due : e.remaining = r
  · simp only [due, within, decide_true, Bool.and_self]
  · simp only [due, decide_false, Bool.false_and]

/-- An entry that is due alone. -/
theorem dueEntries_single {e : WaitEntry} (alone : waits.filter (fun d => decide (d.remaining ≤ a)) = [e]) :
    dueEntries a waits = [e] := by
  rw [← List.perm_singleton, ← alone]
  exact (dueEntries_spec advances waits).1

theorem dueEntries_isEmpty_of_due {e : WaitEntry} (mem : e ∈ waits) (due : e.remaining ≤ a) :
    (dueEntries a waits).isEmpty = false := by
  have found : e ∈ dueEntries a waits := (dueEntries_spec advances waits).1.mem_iff.mpr
    (List.mem_filter.mpr ⟨mem, decide_eq_true due⟩)
  exact List.isEmpty_eq_false_iff.mpr (List.ne_nil_of_mem found)

end Due

end Sys2Proof.Machine
end

section
/-! SUPPORT. What the Cue Engine's actions, fades and firings keep: a predicate of the state that the few writes they are
made of keep holds of what they leave. -/

namespace Sys2Proof.Machine

/-! ## Writing a level -/

theorem State.onlyOutputs.manual {s t : State} (h : s.onlyOutputs t) : t.lvp.manual = s.lvp.manual := by
  obtain ⟨⟨_, _, _, rfl⟩, _⟩ := h
  rfl

/-- R143: beside the level itself, a written level reaches the outputs alone. -/
theorem setLevel_onlyOutputs (target v : Nat) (s : State) :
    ∃ targets, (s.setLvp { s.lvp with targets := targets }).onlyOutputs (setLevel target v s) := by
  unfold setLevel
  split
  · exact ⟨s.lvp.targets, .refl s⟩
  · refine ⟨put s.lvp.targets target v, ?_⟩
    dsimp only
    split
    · exact recompute_onlyOutputs target
    · split
      · exact .foldl (fun _ c => recompute_onlyOutputs c) _ _
      · exact .refl _

theorem setLevel_fixtures (target v : Nat) (s : State) : (setLevel target v s).fbc.fixtures = s.fbc.fixtures := by
  obtain ⟨_, outputs⟩ := setLevel_onlyOutputs target v s
  exact outputs.fixtures

theorem setLevel_manual (target v : Nat) (s : State) : (setLevel target v s).lvp.manual = s.lvp.manual := by
  obtain ⟨_, outputs⟩ := setLevel_onlyOutputs target v s
  exact outputs.manual

theorem setLevel_cue (target v : Nat) (s : State) : (setLevel target v s).cue = s.cue :=
  setLevel_keeps State.cue (fun _ _ _ => rfl) (fun _ _ => rfl) target v s

/-! ## Actions and fades, R121, R122, R132 to R134 -/

/-- What actions and fades are made of keeps `P`. -/
structure ActionsKeep (P : State → Prop) : Prop where
  raise : ∀ {t} k d, P t → P (raise k d t)
  regions : ∀ {t} r, P t → P (t.setFsc (t.withRegions r))
  walls : ∀ {t} w f, P t → P (modWall w f t)
  fades : ∀ {t} x, P t → P (t.setLvp x)
  level : ∀ {t} target v, P t → P (setLevel target v t)
  count : ∀ {t} n f, P t → P (modCount n f t)
  judge : ∀ {t} firing, P t → P (judge firing t)

namespace ActionsKeep

variable {P : State → Prop} (k : ActionsKeep P) {s : State} (h : P s)
include k h

theorem lowerCount (o : Owner) : P (lowerCount o s) := by
  cases o with
  | cue n => exact k.count n (· - 1) h
  | manual => exact h

theorem raiseCount (o : Owner) : P (raiseCount o s) := by
  cases o with
  | cue n => exact k.count n _ h
  | manual => exact h

theorem removeFade (target : Nat) : P (removeFade target s) := by
  unfold Machine.removeFade
  split
  · exact h
  · exact k.lowerCount (k.fades _ h) _

theorem advanceFade (a target : Nat) : P (advanceFade a target s) := by
  unfold Machine.advanceFade
  split
  · exact h
  · split
    · exact k.removeFade (k.level _ _ h) target
    · exact k.level _ _ (k.fades _ h)

theorem advanceFades (a : Nat) : P (advanceFades a s) :=
  List.foldlRecOn _ _ h fun _ hu target _ => k.advanceFade hu a target

theorem startFade (target stop duration curve : Nat) (owner : Owner) :
    P (startFade target stop duration curve owner s) := by
  have freed := k.removeFade h target
  unfold Machine.startFade
  dsimp only
  split
  · exact k.level _ _ freed
  · split
    · exact k.raiseCount (k.fades _ freed) owner
    · exact k.fades _ (k.level _ _ freed)

theorem startManual : P (startManual s) :=
  List.foldlRecOn _ _ (k.fades _ h) fun _ hu m _ => k.judge none (k.startFade hu m.target m.level m.duration m.curve _)

theorem modRegion (id : Nat) (f : Region → Region) : P (modRegion id f s) := k.regions _ h

theorem airUp (source : Option Nat) : P (airUp source s) := by
  cases source with
  | none => exact h
  | some id => exact k.modRegion h id _

theorem airDown (source : Option Nat) : P (airDown source s) := by
  cases source with
  | none => exact h
  | some id => exact k.modRegion h id _

theorem refUp (a : Action) : P (refUp a s) := by
  unfold Machine.refUp
  split
  · exact k.modRegion h _ _
  · exact h

theorem refDown (a : Action) : P (refDown a s) := by
  unfold Machine.refDown
  split
  · exact k.modRegion h _ _
  · exact h

theorem changeLayer (w layer : Nat) (l : Layer) : P (changeLayer w layer l s) := by
  unfold Machine.changeLayer Machine.airMove
  split
  · exact h
  · split
    · exact k.walls _ _ h
    · exact k.walls _ _ (k.airUp (k.airDown h _) _)

theorem effect (owner : Owner) (a : Action) : P (a.effect owner s) := by
  cases a with
  | layerSource => exact k.changeLayer h _ _ _
  | layerFade | wallFade | masterFade => exact k.startFade h _ _ _ _ owner
  | levelFade => exact List.foldlRecOn _ _ h fun _ hu _ _ => k.startFade hu _ _ _ _ owner
  | wallMode => exact k.walls _ _ h

theorem runAction (owner : Option Nat) (position : Nat) (fromWait : Bool) (a : Action) :
    P (runAction owner position fromWait a s) := by
  unfold Machine.runAction
  split
  · exact k.raise _ _ h
  · exact k.effect h _ a

theorem runDue (e : WaitEntry) : P (runDue e s) :=
  k.judge none (k.lowerCount (k.refDown (k.runAction h e.owner e.position true e.action) e.action) _)

end ActionsKeep

/-! ## Firings, R120, R124 -/

/-- The Cue Engine but for the lists, the follow timer and the flag that a firing writes as it goes. -/
def CueEngine.settings (c : CueEngine) : CueEngine :=
  { c with active := [], waits := [], follow := none, waitOverflow := false }

/-- What firings are made of keeps `P`. -/
structure FiringsKeep (P : State → Prop) : Prop extends ActionsKeep P where
  lists : ∀ {t} c, c.settings = t.cue.settings → P t → P (t.setCue c)

/-- R120 step 1: cue `n` begins to fire. -/
def State.firing (s : State) (n : Nat) : State :=
  s.setCue { s.cue with follow := none, recent := some n, standby := nextCue n s.cue.cues }

namespace FiringsKeep

variable {P : State → Prop} (k : FiringsKeep P) {s : State} (h : P s)
include k h

theorem supersede (a : Active) : P (supersede a s) := k.raise _ _ (k.fades _ (k.lists _ (by rfl) h))

theorem makeRoom (n : Nat) : P (makeRoom n s) := by
  unfold Machine.makeRoom
  split
  · exact k.supersede h _
  · split
    · split
      · exact k.supersede h _
      · exact h
    · exact h

theorem addWait (n position delay : Nat) (a : Action) : P (addWait n position delay a s) :=
  k.lists _ (by rfl) (k.refUp (k.count n _ h) a)

omit h

theorem fireAction (n position : Nat) (ta : TimedAction) {f : Firing} (h : P f.state) :
    P (fireAction n position ta f).state := by
  have ran := k.judge (some n) (k.runAction h (some n) position false ta.action)
  unfold Machine.fireAction
  split
  · exact ran
  · split
    · exact k.addWait h n position ta.delay ta.action
    · exact k.lists _ (by rfl) ran

theorem fireActions (n position : Nat) (l : List TimedAction) {f : Firing} (h : P f.state) :
    P (fireActions n position l f).state := by
  induction l generalizing position f with
  | nil => exact h
  | cons ta rest ih => exact ih (position + 1) (k.fireAction n position ta h)

theorem fireCue {n : Nat} {c : Cue} (source : FireSource) (stored : s.cue.cues.find n = some c)
    (h : P (s.firing n)) : P (fireCue n source s) := by
  unfold Machine.fireCue
  rw [stored]
  exact k.judge none (k.raise _ _ (k.fireActions n 1 c.actions (k.lists _ (by rfl) (k.makeRoom h n))))

end FiringsKeep

/-! ## What a firing leaves of the Cue Engine's settings -/

theorem judge_settings (firing : Option Nat) (s : State) : (judge firing s).cue.settings = s.cue.settings := by
  obtain ⟨_, _, _, _, _, e⟩ := judge_onlyFades (s := s) firing
  rw [e]
  rfl

theorem settingsKept (c : CueEngine) : FiringsKeep (fun u => u.cue.settings = c) where
  raise _ _ h := h
  regions _ h := h
  walls _ _ h := h
  fades _ h := h
  level target v h := (congrArg CueEngine.settings (setLevel_cue target v _)).trans h
  count _ _ h := h
  judge firing h := (judge_settings firing _).trans h
  lists _ same h := same.trans h

/-- R109, R120: the cue that fires becomes the most recent one, and the next one the standby. -/
theorem fireCue_settings {n : Nat} {c : Cue} (source : FireSource) {s : State}
    (stored : s.cue.cues.find n = some c) :
    (fireCue n source s).cue.recent = some n ∧ (fireCue n source s).cue.standby = nextCue n s.cue.cues := by
  have kept := (settingsKept (s.firing n).cue.settings).fireCue source stored rfl
  exact ⟨congrArg CueEngine.recent kept, congrArg CueEngine.standby kept⟩

/-! ## The fixture table at a boundary -/

theorem fixturesKept (fixtures : Table Fixture) : FiringsKeep (fun u => u.fbc.fixtures = fixtures) where
  raise _ _ h := h
  regions _ h := h
  walls _ _ h := h
  fades _ h := h
  level target v h := (setLevel_fixtures target v _).trans h
  count _ _ h := h
  judge firing h := (judge_keeps (fun u => u.fbc.fixtures) (fun _ _ _ => rfl) (fun _ _ _ => rfl) firing _).trans h
  lists _ _ h := h

theorem fireCue_fixtures (n : Nat) (source : FireSource) (s : State) :
    (fireCue n source s).fbc.fixtures = s.fbc.fixtures := by
  cases stored : s.cue.cues.find n with
  | none => simp only [fireCue, stored]
  | some c => exact (fixturesKept s.fbc.fixtures).fireCue source stored rfl

theorem tallyFire_fixtures (rises : List Nat) (s : State) : (tallyFire rises s).fbc.fixtures = s.fbc.fixtures := by
  unfold tallyFire
  split
  · split
    · exact fireCue_fixtures _ _ s
    · rfl
  · rfl

theorem chooseFire_fixtures (ran : Bool) (a : Nat) (rises : List Nat) (s : State) :
    (chooseFire ran a rises s).fbc.fixtures = s.fbc.fixtures := by
  unfold chooseFire
  split
  · exact fireCue_fixtures _ _ _
  · split
    · dsimp only
      split
      · exact fireCue_fixtures _ _ _
      · exact tallyFire_fixtures rises _
    · exact tallyFire_fixtures rises s

/-- The engine marks fixtures, and leaves their records. -/
theorem cueAtBoundary_fixtures (rises : List Nat) (s : State) :
    (cueAtBoundary rises s).fbc.fixtures = s.fbc.fixtures := by
  have kept := (fixturesKept s.fbc.fixtures).toActionsKeep
  have begun : (s.setCue { s.cue with step := none }).fbc.fixtures = s.fbc.fixtures := rfl
  refine (chooseFire_fixtures _ _ rises _).trans (List.foldlRecOn _ _
    (motive := fun u : State => u.fbc.fixtures = s.fbc.fixtures) (kept.startManual ?_) fun _ hu e _ => kept.runDue hu e)
  split
  · exact begun
  · exact kept.judge none (kept.advanceFades begun _)

end Sys2Proof.Machine
end

section
/-! SUPPORT. The Cue Engine's work at a boundary, R117 to R119: the advance, the manual fades and the due entries leave
its settings and its wait list, and with no standby and no pending request it fires nothing. -/

namespace Sys2Proof.Machine

/-! ## Completions alone -/

/-- `d` is `c` but for what completing cues writes; and with no cue active none completes. -/
structure CueEngine.judgedTo (c d : CueEngine) : Prop where
  frame : ∃ active follow, d = { c with active := active, follow := follow }
  idle : c.active = [] → d = c

namespace CueEngine.judgedTo

variable {c d e : CueEngine}

theorem refl (c : CueEngine) : c.judgedTo c := ⟨⟨_, _, rfl⟩, fun _ => rfl⟩

theorem trans (h : c.judgedTo d) (k : d.judgedTo e) : c.judgedTo e where
  frame := by
    obtain ⟨_, _, rfl⟩ := h.frame
    obtain ⟨active, follow, rfl⟩ := k.frame
    exact ⟨active, follow, rfl⟩
  idle none := (k.idle (h.idle none ▸ none)).trans (h.idle none)

theorem pending (h : c.judgedTo d) : d.pending = c.pending := by
  obtain ⟨_, _, rfl⟩ := h.frame
  rfl

theorem standby (h : c.judgedTo d) : d.standby = c.standby := by
  obtain ⟨_, _, rfl⟩ := h.frame
  rfl

theorem waits (h : c.judgedTo d) : d.waits = c.waits := by
  obtain ⟨_, _, rfl⟩ := h.frame
  rfl

theorem step (h : c.judgedTo d) : d.step = c.step := by
  obtain ⟨_, _, rfl⟩ := h.frame
  rfl

end CueEngine.judgedTo

theorem judge_judgedTo (firing : Option Nat) (s : State) : s.cue.judgedTo (judge firing s).cue where
  frame := by
    obtain ⟨_, _, active, follow, _, e⟩ := judge_onlyFades (s := s) firing
    exact ⟨active, follow, by rw [e]⟩
  idle none := by simp only [judge, none, List.filter_nil, List.foldl_nil]

theorem modCount_judgedTo (n : Nat) (f : Nat → Nat) (s : State) : s.cue.judgedTo (modCount n f s).cue where
  frame := ⟨_, _, rfl⟩
  idle none := by
    have unchanged : s.cue.active.map (fun a => if a.cue = n then { a with outstanding := f a.outstanding } else a) =
        s.cue.active := by rw [none, List.map_nil]
    rw [modCount, unchanged]
    rfl

/-- R123: actions and fades count and complete, and leave the rest of the Cue Engine. -/
theorem judgedKept (c : CueEngine) : ActionsKeep (fun u => c.judgedTo u.cue) where
  raise _ _ h := h
  regions _ h := h
  walls _ _ h := h
  fades _ h := h
  level target v h := (setLevel_cue target v _).symm ▸ h
  count n f h := h.trans (modCount_judgedTo n f _)
  judge firing h := h.trans (judge_judgedTo firing _)

/-! ## The advance, R117 -/

/-- The lists and the timer after `a` frames. -/
def CueEngine.elapsed (a : Nat) (c : CueEngine) : CueEngine :=
  { c with
    waits := laterEntries a c.waits
    follow := c.follow.map (fun f => { f with remaining := f.remaining - a }) }

theorem CueEngine.judgedTo.elapsed {c d : CueEngine} (h : c.judgedTo d) (a : Nat) :
    (c.elapsed a).judgedTo (d.elapsed a) where
  frame := by
    obtain ⟨_, _, rfl⟩ := h.frame
    exact ⟨_, _, rfl⟩
  idle none := congrArg (CueEngine.elapsed a) (h.idle none)

theorem advanceTime_eq (a : Nat) (s : State) :
    advanceTime a s = judge none ((advanceFades a s).setCue ((advanceFades a s).cue.elapsed a)) := rfl

theorem advanceTime_judgedTo (a : Nat) (s : State) : (s.cue.elapsed a).judgedTo (advanceTime a s).cue := by
  rw [advanceTime_eq]
  refine (((judgedKept s.cue).advanceFades (.refl _) a).elapsed a).trans ?_
  exact judge_judgedTo none ((advanceFades a s).setCue _)

/-- R127: a boundary takes the pending step. -/
def CueEngine.unstepped (c : CueEngine) : CueEngine := { c with step := none }

/-- The engine after the advance of a boundary, but for completions. -/
def CueEngine.advanced (c : CueEngine) : CueEngine :=
  if c.advance = 0 then c.unstepped else c.unstepped.elapsed c.advance

/-- The state after the advance of a boundary. -/
def State.afterTime (s : State) : State :=
  if s.cue.advance = 0 then s.setCue s.cue.unstepped else advanceTime s.cue.advance (s.setCue s.cue.unstepped)

theorem State.afterTime_judgedTo (s : State) : s.cue.advanced.judgedTo s.afterTime.cue := by
  unfold CueEngine.advanced State.afterTime
  split
  · exact .refl _
  · exact advanceTime_judgedTo s.cue.advance (s.setCue s.cue.unstepped)

theorem CueEngine.advanced_pending (c : CueEngine) : c.advanced.pending = c.pending := by
  unfold CueEngine.advanced
  split <;> rfl

theorem CueEngine.advanced_standby (c : CueEngine) : c.advanced.standby = c.standby := by
  unfold CueEngine.advanced
  split <;> rfl

theorem CueEngine.advanced_cues (c : CueEngine) : c.advanced.cues = c.cues := by
  unfold CueEngine.advanced
  split <;> rfl

theorem CueEngine.advanced_step (c : CueEngine) : c.advanced.step = none := by
  unfold CueEngine.advanced
  split <;> rfl

theorem CueEngine.advanced_active (c : CueEngine) : c.advanced.active = c.active := by
  unfold CueEngine.advanced
  split <;> rfl

theorem CueEngine.advanced_recent (c : CueEngine) : c.advanced.recent = c.recent := by
  unfold CueEngine.advanced
  split <;> rfl

theorem CueEngine.advanced_eq {c : CueEngine} (advances : 0 < c.advance) :
    c.advanced = c.unstepped.elapsed c.advance := if_neg (Nat.ne_of_gt advances)

/-! ## The due entries, R118 -/

/-- The state in which it is chosen what fires: time has advanced, and the manual fades and the due entries have been
executed. -/
def State.afterDue (s : State) : State :=
  (dueEntries s.cue.advance s.cue.waits).foldl (fun t e => runDue e t) (startManual s.afterTime)

theorem cueAtBoundary_eq (rises : List Nat) (s : State) :
    cueAtBoundary rises s = chooseFire s.cue.follow.isSome s.cue.advance rises s.afterDue := rfl

theorem State.afterDue_judgedTo (s : State) : s.cue.advanced.judgedTo s.afterDue.cue :=
  have k := judgedKept s.cue.advanced
  List.foldlRecOn _ _ (motive := fun u : State => s.cue.advanced.judgedTo u.cue) (k.startManual s.afterTime_judgedTo)
    fun _ hu e _ => k.runDue hu e

/-- R118, R121, R123: a due entry executes and leaves, with what its action and its owner count of it. -/
theorem runDue_eq (e : WaitEntry) (s : State) :
    let u := runAction e.owner e.position true e.action s
    runDue e s = judge none { u with
      fsc := { u.fsc with regions := match e.action.region with
        | none => u.fsc.regions
        | some id => u.fsc.regions.modify id (fun r => { r with ref := r.ref - 1 }) }
      cue := { u.cue with active := u.cue.active.map (fun b =>
        if e.owner = some b.cue then { b with outstanding := b.outstanding - 1 } else b) } } := by
  intro u
  have referred : refDown e.action u = { u with
      fsc := { u.fsc with regions := match e.action.region with
        | none => u.fsc.regions
        | some id => u.fsc.regions.modify id (fun r => { r with ref := r.ref - 1 }) } } := by
    unfold refDown
    cases e.action.region <;> rfl
  have lowered (t : State) : lowerCount (ownerOf e.owner) t = { t with
      cue := { t.cue with active := t.cue.active.map (fun b =>
        if e.owner = some b.cue then { b with outstanding := b.outstanding - 1 } else b) } } := by
    cases e.owner with
    | none =>
      simp only [ownerOf, lowerCount, reduceCtorEq, if_false, List.map_id']
    | some n =>
      simp only [ownerOf, lowerCount, modCount, State.setCue, Option.some.injEq, eq_comm (a := n)]
  show judge none (lowerCount _ (refDown e.action u)) = _
  rw [lowered, referred]

/-! ## What fires, R119 -/

theorem standbyTrigger_none {c : CueEngine} (noStandby : c.standby = none) : c.standbyTrigger = none := by
  simp only [CueEngine.standbyTrigger, noStandby]

theorem tallyFire_noStandby (rises : List Nat) {s : State} (noStandby : s.cue.standby = none) :
    tallyFire rises s = s := by
  simp only [tallyFire, standbyTrigger_none noStandby]

/-- The follow timer has run out. -/
def State.timerGone (s : State) : State := s.setCue { s.cue with follow := none }

section Choice

variable {s : State} (noRequest : s.cue.pending = none) (a : Nat) (rises : List Nat)
include noRequest

/-- With no request and no standby, nothing fires: at most the follow timer goes. -/
theorem chooseFire_noStandby (ran : Bool) (noStandby : s.cue.standby = none) :
    ∃ f, chooseFire ran a rises s = s.setCue { s.cue with follow := f } := by
  have none_fires (follow : Option Follow) :=
    tallyFire_noStandby rises (s := s.setCue { s.cue with follow := follow }) noStandby
  unfold chooseFire
  rw [noRequest]
  dsimp only
  split
  · refine ⟨none, ?_⟩
    split
    · rename_i armed
      exact absurd ((standbyTrigger_none (c := s.timerGone.cue) noStandby).symm.trans armed)
        (Option.some_ne_none _).symm
    · exact none_fires none
  · exact ⟨s.cue.follow, none_fires s.cue.follow⟩

omit noRequest
variable {a} (advances : 0 < a) (expired : s.cue.follow.map (·.remaining) = some 0)
include advances expired

theorem timer_expires : (true && decide (0 < a) && decide (s.cue.follow.map (·.remaining) = some 0)) = true := by
  simp only [advances, expired, decide_true, Bool.and_self]

include noRequest

theorem chooseFire_expiry_fires {n d : Nat} (trigger : s.timerGone.cue.standbyTrigger = some (n, .follow d)) :
    chooseFire true a rises s = fireCue n .follow s.timerGone := by
  unfold chooseFire
  rw [noRequest]
  dsimp only
  rw [if_pos (timer_expires advances expired)]
  split
  · rename_i m _ armed
    obtain ⟨rfl, -⟩ := Prod.mk.inj (Option.some.inj (trigger.symm.trans armed))
    rfl
  · rename_i other
    exact absurd trigger (other n d)

theorem chooseFire_expiry_noStandby (noStandby : s.cue.standby = none) :
    chooseFire true a rises s = s.timerGone := by
  unfold chooseFire
  rw [noRequest]
  dsimp only
  rw [if_pos (timer_expires advances expired)]
  split
  · rename_i armed
    exact absurd ((standbyTrigger_none (c := s.timerGone.cue) noStandby).symm.trans armed) (Option.some_ne_none _).symm
  · exact tallyFire_noStandby rises noStandby

end Choice

section NothingFires

variable {s : State} (noRequest : s.cue.pending = none)
include noRequest

theorem State.afterDue_pending : s.afterDue.cue.pending = none :=
  s.afterDue_judgedTo.pending.trans (s.cue.advanced_pending.trans noRequest)

theorem cueAtBoundary_noStandby (rises : List Nat) (noStandby : s.cue.standby = none) :
    ∃ f, cueAtBoundary rises s = s.afterDue.setCue { s.afterDue.cue with follow := f } :=
  chooseFire_noStandby (State.afterDue_pending noRequest) _ rises _
    (s.afterDue_judgedTo.standby.trans (s.cue.advanced_standby.trans noStandby))

end NothingFires

/-! ## The follow timer's end, R119 -/

section Expiry

variable {s : State} {f : Follow} (noRequest : s.cue.pending = none) (none_active : s.cue.active = [])
  (runs : s.cue.follow = some f) (advances : 0 < s.cue.advance) (due : f.remaining ≤ s.cue.advance)
include none_active

/-- With no cue active none completes, and no timer starts anew. -/
theorem State.afterDue_idle : s.afterDue.cue = s.cue.advanced :=
  s.afterDue_judgedTo.idle (s.cue.advanced_active.trans none_active)

include runs advances due

theorem State.afterDue_expired : s.afterDue.cue.follow.map (·.remaining) = some 0 := by
  rw [State.afterDue_idle none_active, CueEngine.advanced_eq advances, CueEngine.elapsed, CueEngine.unstepped, runs]
  exact congrArg some (Nat.sub_eq_zero_of_le due)

include noRequest

/-- R109, R119: the standby cue fires, and the next one becomes the standby. -/
theorem cueAtBoundary_expiry_fires (rises : List Nat) {n d : Nat} {actions : List TimedAction}
    (standby : s.cue.standby = some n) (stored : s.cue.cues.find n = some ⟨.follow d, actions⟩) :
    (cueAtBoundary rises s).cue.recent = some n ∧
      (cueAtBoundary rises s).cue.standby = (s.cue.cues.firstFrom (n + 1)).map (·.1) := by
  have engine := State.afterDue_idle none_active
  have cues : s.afterDue.timerGone.cue.cues = s.cue.cues :=
    (congrArg CueEngine.cues engine).trans s.cue.advanced_cues
  have found := cues.symm ▸ stored
  have armed : s.afterDue.timerGone.cue.standby = some n :=
    (congrArg CueEngine.standby engine).trans (s.cue.advanced_standby.trans standby)
  have trigger : s.afterDue.timerGone.cue.standbyTrigger = some (n, .follow d) := by
    simp only [CueEngine.standbyTrigger, armed, found, Option.map_some]
  rw [cueAtBoundary_eq, runs, Option.isSome_some, chooseFire_expiry_fires (State.afterDue_pending noRequest) rises
    advances (State.afterDue_expired none_active runs advances due) trigger, ← cues]
  exact fireCue_settings .follow found

theorem cueAtBoundary_expiry_noStandby (rises : List Nat) (noStandby : s.cue.standby = none) :
    (cueAtBoundary rises s).cue = { s.cue.advanced with follow := none } := by
  have engine := State.afterDue_idle none_active
  have unarmed : s.afterDue.cue.standby = none :=
    (congrArg CueEngine.standby engine).trans (s.cue.advanced_standby.trans noStandby)
  rw [cueAtBoundary_eq, runs, Option.isSome_some, chooseFire_expiry_noStandby (State.afterDue_pending noRequest) rises
    advances (State.afterDue_expired none_active runs advances due) unarmed, ← engine]
  rfl

end Expiry

end Sys2Proof.Machine
end

section
/-! SUPPORT. The whole boundary around the Cue Engine's work, R5: what the blocks before it leave as it was, and what the
blocks after it leave as the engine made it. -/

namespace Sys2Proof.Machine

/-! ## Before the Cue Engine -/

/-- R106: the zone-complete events write zones and the outputs of channels. -/
theorem completeZones_same {α : Type} (p : State → α)
    (zones : ∀ s zones, p (s.setWse { s.wse with zones := zones }) = p s)
    (outputs : ∀ s t, State.onlyOutputs s t → p t = p s) (s : State) : p (completeZones s) = p s := by
  refine foldl_keeps p _ (fun t z => ?_) _ s
  unfold completeZone
  split
  · rfl
  · rename_i zone _
    split
    · exact (outputs _ _ (State.trackedBelow_onlyOutputs z zone.averages 768)).trans (zones t _)
    · rfl

/-- What the Cue Engine's work at a boundary starts from. -/
def State.cueInputs (s : State) :=
  (s.cue, s.lvp.targets, s.lvp.fades, s.lvp.manual, s.lvp.curves, s.wse.walls, s.fsc, s.fbc.fixtures)

theorem State.onlyOutputs.cueInputs {s t : State} (h : s.onlyOutputs t) : t.cueInputs = s.cueInputs := by
  obtain ⟨⟨_, _, _, rfl⟩, _⟩ := h
  rfl

theorem State.turned_cueInputs (s : State) : s.turned.cueInputs = s.cueInputs := by
  rw [State.turned, endLengthened_keeps State.cueInputs (fun _ _ => rfl) (fun _ _ _ => rfl),
    genAtBoundary_keeps State.cueInputs (fun _ _ => rfl) (fun _ _ _ => rfl)]
  exact completeZones_same State.cueInputs (fun _ _ => rfl) (fun _ _ h => h.cueInputs) s

/-- The state that the Cue Engine acts on at a boundary that the tick count brings. -/
def State.atCue (lines : BitVec 8) (s : State) : State := cphAtBoundary lines s.turned

theorem State.atCue_cueInputs (lines : BitVec 8) (s : State) : (s.atCue lines).cueInputs = s.cueInputs :=
  (cphAtBoundary_keeps State.cueInputs (fun _ _ => rfl) (fun _ _ _ => rfl) lines s.turned).trans s.turned_cueInputs

section

variable (lines : BitVec 8) (s : State)

@[simp] theorem State.atCue_cue : (s.atCue lines).cue = s.cue := congrArg (·.1) (s.atCue_cueInputs lines)

@[simp] theorem State.atCue_targets : (s.atCue lines).lvp.targets = s.lvp.targets :=
  congrArg (·.2.1) (s.atCue_cueInputs lines)

@[simp] theorem State.atCue_fades : (s.atCue lines).lvp.fades = s.lvp.fades :=
  congrArg (·.2.2.1) (s.atCue_cueInputs lines)

@[simp] theorem State.atCue_manual : (s.atCue lines).lvp.manual = s.lvp.manual :=
  congrArg (·.2.2.2.1) (s.atCue_cueInputs lines)

@[simp] theorem State.atCue_curves : (s.atCue lines).lvp.curves = s.lvp.curves :=
  congrArg (·.2.2.2.2.1) (s.atCue_cueInputs lines)

@[simp] theorem State.atCue_walls : (s.atCue lines).wse.walls = s.wse.walls :=
  congrArg (·.2.2.2.2.2.1) (s.atCue_cueInputs lines)

@[simp] theorem State.atCue_fsc : (s.atCue lines).fsc = s.fsc := congrArg (·.2.2.2.2.2.2.1) (s.atCue_cueInputs lines)

@[simp] theorem State.atCue_fixtures : (s.atCue lines).fbc.fixtures = s.fbc.fixtures :=
  congrArg (·.2.2.2.2.2.2.2) (s.atCue_cueInputs lines)

@[simp] theorem State.atCue_level (n : Nat) : (s.atCue lines).level n = s.level n := by
  simp only [State.level, State.atCue_targets]

@[simp] theorem State.atCue_curve (n : Nat) : (s.atCue lines).curve n = s.curve n := by
  simp only [State.curve, State.atCue_curves]

@[simp] theorem State.atCue_wall (w : Nat) : (s.atCue lines).wall w = s.wall w := by
  simp only [State.wall, State.atCue_walls]

@[simp] theorem State.atCue_region (id : Nat) : (s.atCue lines).region id = s.region id := by
  simp only [State.region, State.atCue_fsc]

/-! ## After the Cue Engine -/

/-- What the Cue Engine leaves at a boundary that the tick count brings. -/
def State.cueDone : State := s.turned.beforeLive lines

theorem State.cueDone_eq : ∃ rises, s.cueDone lines = cueAtBoundary rises (s.atCue lines) := ⟨_, rfl⟩

/-- What leaves alone the blocks that act after the Cue Engine is as the engine made it. -/
theorem tickBoundary_after {α : Type} (p : State → α)
    (hreg : ∀ s r, p (State.setFsc s (State.withRegions s r)) = p s) (hlip : ∀ s x, p (State.setLip s x) = p s)
    (hwse : ∀ s x, p (State.setWse s x) = p s) (hfbc : ∀ s x, p (State.setFbc s x) = p s)
    (hdou : ∀ s x, p (State.setDou s x) = p s) (hrai : ∀ k d s, p (raise k d s) = p s) :
    p (tickBoundary lines s) = p (s.cueDone lines) := by
  rw [tickBoundary_eq]
  unfold blocksAtBoundary
  dsimp only
  rw [douAtBoundary_keeps p hdou, fbcAtBoundary_keeps p hfbc hrai,
    wseAtBoundary_keeps p hreg hlip (fun s x _ => hwse s x) hrai, liveAtBoundary_keeps p hlip hrai]
  rfl

theorem tickBoundary_cue : (tickBoundary lines s).cue = (s.cueDone lines).cue :=
  tickBoundary_after lines s State.cue (fun _ _ => rfl) (fun _ _ => rfl) (fun _ _ => rfl) (fun _ _ => rfl)
    (fun _ _ => rfl) (fun _ _ _ => rfl)

theorem tickBoundary_lvp : (tickBoundary lines s).lvp = (s.cueDone lines).lvp :=
  tickBoundary_after lines s State.lvp (fun _ _ => rfl) (fun _ _ => rfl) (fun _ _ => rfl) (fun _ _ => rfl)
    (fun _ _ => rfl) (fun _ _ _ => rfl)

theorem tickBoundary_counter : (tickBoundary lines s).rtu.counter = s.rtu.counter + 1 :=
  Rtu.counter_of_frameFields (tickBoundary_frameFields lines s)

end

end Sys2Proof.Machine
end

section
/-! SUPPORT. The running fades after an advance, R134: each is advanced once, and no other level is written. -/

namespace Sys2Proof.Machine

theorem Table.find_eq_none_iff {α : Type} (k : Nat) (t : Table α) : t.find k = none ↔ k ∉ t.ids := by
  induction t with
  | nil => exact iff_of_true rfl List.not_mem_nil
  | cons e rest ih =>
    obtain ⟨j, x⟩ := e
    by_cases same : k = j
    · simp [Table.find, Table.ids, same]
    · simpa [Table.find, Table.ids, same] using ih

theorem Table.ids_nodup {α : Type} {t : Table α} (h : t.wf = true) : t.ids.Nodup :=
  ((Table.wf_iff_ids t).mp h).imp Nat.ne_of_lt

/-- R134: what an advance by `a` frames leaves of a fade, if it still runs. -/
def Fade.advanced (a : Nat) (f : Fade) : Option Fade :=
  if f.duration ≤ f.elapsed + a then none else some { f with elapsed := f.elapsed + a }

/-- R134, R135: the level of its target. -/
def Fade.levelAfter (a : Nat) (curve : Vector Nat 17) (f : Fade) : Nat :=
  if f.duration ≤ f.elapsed + a then f.stop else fadeLevel curve f (f.elapsed + a)

theorem curve_advanceFade (a target c : Nat) (s : State) : (advanceFade a target s).curve c = s.curve c :=
  advanceFade_keeps (fun u => u.curve c) (fun _ _ _ => rfl)
    (fun _ _ h => congrArg (fun curves => at_ curves c Curve.linear) h) (fun _ _ => rfl) a target s

section Several

variable (a : Nat) (targets : List Nat) (once : targets.Nodup) (s : State) (j : Nat)
include once

theorem find_foldl_advanceFade :
    (targets.foldl (fun t target => advanceFade a target t) s).lvp.fades.find j =
      if j ∈ targets then (s.lvp.fades.find j).bind (Fade.advanced a) else s.lvp.fades.find j := by
  induction targets generalizing s with
  | nil => exact (if_neg List.not_mem_nil).symm
  | cons k rest ih =>
    obtain ⟨fresh, once⟩ := List.nodup_cons.mp once
    rw [List.foldl_cons, ih once, find_advanceFade]
    by_cases first : j = k
    · subst first
      rw [if_neg fresh, if_pos rfl, if_pos List.mem_cons_self]
      rfl
    · rw [if_neg first]
      exact if_congr (by simp only [List.mem_cons, first, false_or]) rfl rfl

theorem level_foldl_advanceFade (inTable : j ≤ 788) :
    (targets.foldl (fun t target => advanceFade a target t) s).level j =
      if j ∈ targets then (s.lvp.fades.find j).elim (s.level j) (fun f => f.levelAfter a (s.curve f.curve))
      else s.level j := by
  induction targets generalizing s with
  | nil => exact (if_neg List.not_mem_nil).symm
  | cons k rest ih =>
    obtain ⟨fresh, once⟩ := List.nodup_cons.mp once
    rw [List.foldl_cons, ih once, find_advanceFade, level_advanceFade _ _ _ _ inTable]
    by_cases first : j = k
    · subst first
      rw [if_neg fresh, if_pos rfl, if_pos List.mem_cons_self]
      cases s.lvp.fades.find j <;> rfl
    · simp only [first, if_false, curve_advanceFade, List.mem_cons, false_or]

end Several

section Advance

variable (a : Nat) {s : State} (canonical : Table.wf s.lvp.fades = true)
include canonical

theorem find_advanceFades (j : Nat) :
    (advanceFades a s).lvp.fades.find j = (s.lvp.fades.find j).bind (Fade.advanced a) := by
  refine (find_foldl_advanceFade a _ (Table.ids_nodup canonical) s j).trans ?_
  split
  · rfl
  · rename_i free
    rw [(Table.find_eq_none_iff j s.lvp.fades).mpr free]
    rfl

theorem level_advanceFades {j : Nat} (inTable : j ≤ 788) :
    (advanceFades a s).level j =
      (s.lvp.fades.find j).elim (s.level j) (fun f => f.levelAfter a (s.curve f.curve)) := by
  refine (level_foldl_advanceFade a _ (Table.ids_nodup canonical) s j inTable).trans ?_
  split
  · rfl
  · rename_i free
    rw [(Table.find_eq_none_iff j s.lvp.fades).mpr free]
    rfl

end Advance

theorem advanceFade_manual (a target : Nat) (s : State) : (advanceFade a target s).lvp.manual = s.lvp.manual := by
  unfold advanceFade
  split
  · rfl
  · split
    · rw [endFade, removeFade_lvp]
      exact setLevel_manual _ _ s
    · exact setLevel_manual _ _ _

theorem startManual_none {s : State} (none : s.lvp.manual = []) : startManual s = s := by
  have same : s.setLvp { s.lvp with manual := [] } = s := by rw [← none]; rfl
  rw [startManual, same, none, List.foldl_nil]

theorem dueEntries_nil (a : Nat) : dueEntries a [] = [] := by
  unfold dueEntries
  split <;> rfl

/-- With no manual fade pending and no wait entry, what runs at a boundary is the advance of the fades. -/
theorem State.afterDue_lvp {s : State} (manual : s.lvp.manual = []) (waits : s.cue.waits = [])
    (advances : 0 < s.cue.advance) :
    s.afterDue.lvp = (advanceFades s.cue.advance (s.setCue s.cue.unstepped)).lvp := by
  have time : s.afterTime.lvp = (advanceFades s.cue.advance (s.setCue s.cue.unstepped)).lvp := by
    rw [State.afterTime, if_neg (Nat.ne_of_gt advances), advanceTime_eq,
      judge_keeps State.lvp (fun _ _ _ => rfl) (fun _ _ _ => rfl), State.setCue_lvp]
  have none_pending : s.afterTime.lvp.manual = [] := by
    rw [time]
    exact (foldl_keeps (fun u => u.lvp.manual) _ (fun u target => advanceFade_manual _ target u) _ _).trans manual
  rw [State.afterDue, waits, dueEntries_nil, List.foldl_nil, startManual_none none_pending, time]

end Sys2Proof.Machine
end

section
/-! SUPPORT. The fixtures at a boundary, R159: each has its keep-alive countdown and its silence count moved on once, and
no mark is taken from a port. -/

namespace Sys2Proof.Machine

/-! ## One fixture -/

/-- R159: what a boundary leaves of the keep-alive countdown. -/
def Fixture.countedDown (f : Fixture) : Fixture :=
  if f.countdown ≤ 1 then { f with countdown := f.keepAlive } else { f with countdown := f.countdown - 1 }

/-- R159: what a boundary leaves of the silence count. -/
def Fixture.listened (f : Fixture) : Fixture :=
  if 0 < f.silenceLimit ∧ f.state ≠ .silent then
    { f with
      silence := f.silence + 1
      state := if f.silenceLimit ≤ f.silence + 1 then .silent else f.state }
  else f

theorem Fixture.countedDown_eq (f : Fixture) : f.countedDown = { f with countdown := f.countedDown.countdown } := by
  unfold Fixture.countedDown
  split <;> rfl

theorem Fixture.listened_eq (f : Fixture) :
    f.listened = { f with silence := f.listened.silence, state := f.listened.state } := by
  unfold Fixture.listened
  split <;> rfl

section Ticks

variable {s : State} {id : Nat} {f : Fixture}

theorem find_modFixture (id j : Nat) (g : Fixture → Fixture) (s : State) :
    (modFixture id g s).fbc.fixtures.find j =
      if j = id then (s.fbc.fixtures.find j).map g else s.fbc.fixtures.find j := Table.find_modify _ _ _ _

theorem find_modFixture_self (found : s.fbc.fixtures.find id = some f) (g : Fixture → Fixture) :
    (modFixture id g s).fbc.fixtures.find id = some (g f) := by
  rw [find_modFixture, if_pos rfl, found]
  rfl

theorem fixtures_markDirty (id : Nat) (s : State) : (markDirty id s).fbc.fixtures = s.fbc.fixtures :=
  (markDirty_onlyOutputs id).fixtures

theorem keepAliveTick_find (found : s.fbc.fixtures.find id = some f) :
    (keepAliveTick id s).fbc.fixtures.find id = some f.countedDown := by
  simp only [keepAliveTick, found, Fixture.countedDown]
  split
  · rw [fixtures_markDirty, find_modFixture_self found]
  · rw [find_modFixture_self found]

theorem keepAliveTick_find_other {j : Nat} (other : j ≠ id) :
    (keepAliveTick id s).fbc.fixtures.find j = s.fbc.fixtures.find j := by
  unfold keepAliveTick
  split
  · rfl
  · split
    · rw [fixtures_markDirty, find_modFixture, if_neg other]
    · rw [find_modFixture, if_neg other]

theorem enterFixture_find (new : FixtureState) (id j : Nat) (s : State) :
    (enterFixture id new s).fbc.fixtures.find j =
      if j = id then (s.fbc.fixtures.find j).map (fun x => { x with state := new }) else s.fbc.fixtures.find j := by
  unfold enterFixture
  split
  · rename_i free
    split
    · rename_i same
      rw [same, free]
      rfl
    · rfl
  · dsimp only
    split
    · exact find_modFixture id j _ s
    · exact find_modFixture id j _ s

theorem silenceTick_find (found : s.fbc.fixtures.find id = some f) :
    (silenceTick id s).fbc.fixtures.find id = some f.listened := by
  simp only [silenceTick, found, Fixture.listened]
  split
  · split
    · rw [enterFixture_find, if_pos rfl, find_modFixture_self found]
      rfl
    · rw [find_modFixture_self found]
  · exact found

theorem silenceTick_find_other {j : Nat} (other : j ≠ id) :
    (silenceTick id s).fbc.fixtures.find j = s.fbc.fixtures.find j := by
  unfold silenceTick
  split
  · rfl
  · split
    · dsimp only
      split
      · rw [enterFixture_find, if_neg other, find_modFixture, if_neg other]
      · rw [find_modFixture, if_neg other]
    · rfl

theorem silenceTick_port (id : Nat) (s : State) (p : Port) : (silenceTick id s).port p = s.port p := by
  unfold silenceTick enterFixture
  dsimp only
  split
  · rfl
  · split
    · split
      · split
        · rfl
        · split <;> rfl
      · rfl
    · rfl

/-- R159: what FIXTURE_STATE carries where a fixture becomes SILENT. -/
def Fixture.silentDetails (id : Nat) (f : Fixture) : List Field :=
  [.u2 id, .u2 (portCode f.port), .u2 f.address, .u2 f.state.code, .u2 FixtureState.silent.code,
    (match f.temperature with
     | none => .noneI2
     | some degrees => .i2 degrees)]

/-- R159: the silence limit is reached, and FIXTURE_STATE is raised. -/
theorem silenceTick_lkd (found : s.fbc.fixtures.find id = some f) (watched : 0 < f.silenceLimit)
    (heard : f.state ≠ .silent) (limit : f.silenceLimit ≤ f.silence + 1) :
    (silenceTick id s).lkd = s.lkd.raise ⟨.fixtureState, s.rtu.counter, f.silentDetails id⟩ := by
  have entered := find_modFixture_self found fun x => { x with silence := x.silence + 1 }
  simp only [silenceTick, found, watched, heard, limit, and_self, if_true, ne_eq, not_false_eq_true, enterFixture,
    entered, if_false]
  rfl

/-! ## All fixtures -/

/-- One fixture's share in the work of a boundary. -/
def fixtureTick (s : State) (id : Nat) : State := silenceTick id (keepAliveTick id s)

theorem fbcAtBoundary_eq (s : State) : fbcAtBoundary s = s.fbc.fixtures.ids.foldl fixtureTick s := rfl

theorem fixtureTick_find (found : s.fbc.fixtures.find id = some f) :
    (fixtureTick s id).fbc.fixtures.find id = some f.countedDown.listened :=
  silenceTick_find (keepAliveTick_find found)

theorem fixtureTick_find_other {j : Nat} (other : j ≠ id) :
    (fixtureTick s id).fbc.fixtures.find j = s.fbc.fixtures.find j :=
  (silenceTick_find_other other).trans (keepAliveTick_find_other other)

theorem fixtureTick_rtu (s : State) (id : Nat) : (fixtureTick s id).rtu = s.rtu := by
  rw [fixtureTick, silenceTick_keeps State.rtu (fun _ _ => rfl) (fun _ _ _ => rfl),
    keepAliveTick_keeps State.rtu (fun _ _ => rfl)]

theorem keepAliveTick_lkd (id : Nat) (s : State) : (keepAliveTick id s).lkd = s.lkd :=
  keepAliveTick_keeps State.lkd (fun _ _ => rfl) id s

theorem fixtureTick_raises (s : State) (id : Nat) : s.Raises (fixtureTick s id) :=
  .before (keepAliveTick_lkd id s) (silenceTick_raises id _)

/-- R159: a fixture's turn at which it becomes SILENT. -/
theorem fixtureTick_lkd (found : s.fbc.fixtures.find id = some f) (watched : 0 < f.silenceLimit)
    (heard : f.state ≠ .silent) (limit : f.silenceLimit ≤ f.silence + 1) :
    (fixtureTick s id).lkd = s.lkd.raise ⟨.fixtureState, s.rtu.counter, f.silentDetails id⟩ := by
  have counted := keepAliveTick_find found
  rw [f.countedDown_eq] at counted
  rw [fixtureTick, silenceTick_lkd counted watched heard limit, keepAliveTick_lkd,
    keepAliveTick_keeps State.rtu (fun _ _ => rfl)]
  rfl

theorem marked_silenceTick (id : Nat) (s : State) (p : Port) (j : Nat) :
    (silenceTick id s).marked p j ↔ s.marked p j := by
  simp only [State.marked, silenceTick_port]

theorem marked_keepAliveTick {p : Port} {j : Nat} (h : s.marked p j) : (keepAliveTick id s).marked p j := by
  have written (g : Fixture → Fixture) : (modFixture id g s).marked p j := by cases p <;> exact h
  unfold keepAliveTick
  split
  · exact h
  · split
    · exact (markDirty_onlyOutputs id).marks p j (written _)
    · exact written _

theorem marked_fixtureTick {p : Port} {j : Nat} (h : s.marked p j) : (fixtureTick s id).marked p j :=
  (marked_silenceTick id _ p j).mpr (marked_keepAliveTick h)

/-- R159: the countdown ends, and the fixture is marked. -/
theorem fixtureTick_marks (found : s.fbc.fixtures.find id = some f) (ends : f.countdown ≤ 1) :
    (fixtureTick s id).marked f.port id := by
  refine (marked_silenceTick id _ f.port id).mpr ?_
  simp only [keepAliveTick, found, ends, if_true]
  exact markDirty_marks (f := { f with countdown := f.keepAlive })
    (find_modFixture_self found fun x => { x with countdown := x.keepAlive })

/-- The turns of other fixtures. -/
theorem foldl_fixtureTick (others : List Nat) (j : Nat) (absent : j ∉ others) (s : State) :
    let t := others.foldl fixtureTick s
    t.fbc.fixtures.find j = s.fbc.fixtures.find j ∧ t.rtu = s.rtu ∧ s.Raises t ∧
      ∀ p, s.marked p j → t.marked p j := by
  induction others generalizing s with
  | nil => exact ⟨rfl, rfl, .refl s, fun _ => id⟩
  | cons k rest ih =>
    obtain ⟨other, absent⟩ := not_or.mp (mt List.mem_cons.mpr absent)
    obtain ⟨find, rtu, raises, marks⟩ := ih absent (fixtureTick s k)
    exact ⟨find.trans (fixtureTick_find_other other), rtu.trans (fixtureTick_rtu s k),
      (fixtureTick_raises s k).trans raises, fun p h => marks p (marked_fixtureTick h)⟩

/-- The turn of one fixture among those of the others. -/
theorem fbcAtBoundary_turn (canonical : Table.wf s.fbc.fixtures = true) (found : s.fbc.fixtures.find id = some f) :
    ∃ u : State, u.fbc.fixtures.find id = some f ∧ u.rtu = s.rtu ∧ s.Raises u ∧
      (fixtureTick u id).Raises (fbcAtBoundary s) ∧
      (fbcAtBoundary s).fbc.fixtures.find id = some f.countedDown.listened ∧
      ∀ p, (fixtureTick u id).marked p id → (fbcAtBoundary s).marked p id := by
  have listed : id ∈ s.fbc.fixtures.ids := by
    by_contra absent
    rw [(Table.find_eq_none_iff id s.fbc.fixtures).mpr absent] at found
    cases found
  obtain ⟨before, later, split⟩ := List.append_of_mem listed
  have once := split ▸ Table.ids_nodup canonical
  obtain ⟨-, tail, apart⟩ := List.nodup_append.mp once
  have not_before : id ∉ before := fun mem => apart id mem id List.mem_cons_self rfl
  obtain ⟨find, rtu, raises, -⟩ := foldl_fixtureTick before id not_before s
  obtain ⟨find', -, raises', marks'⟩ := foldl_fixtureTick later id (List.nodup_cons.mp tail).1
    (fixtureTick (before.foldl fixtureTick s) id)
  have found_then := find.trans found
  rw [fbcAtBoundary_eq, split, List.foldl_append, List.foldl_cons]
  exact ⟨_, found_then, rtu, raises, raises', find'.trans (fixtureTick_find found_then), marks'⟩

end Ticks

/-! ## The whole boundary -/

/-- The state that the Fixture Bus Controller acts on at a boundary that the tick count brings. -/
def State.atFixtures (lines : BitVec 8) (s : State) : State :=
  wseAtBoundary (liveAtBoundary (s.cueDone lines))

section Whole

variable (lines : BitVec 8) (s : State)

theorem tickBoundary_eq_fixtures :
    tickBoundary lines s = douAtBoundary s.rtu.slip.isSome (fbcAtBoundary (s.atFixtures lines)) := rfl

theorem State.atFixtures_fixtures : (s.atFixtures lines).fbc.fixtures = s.fbc.fixtures := by
  obtain ⟨rises, done⟩ := s.cueDone_eq lines
  rw [State.atFixtures, wseAtBoundary_keeps (fun u => u.fbc.fixtures) (fun _ _ => rfl) (fun _ _ => rfl)
    (fun _ _ _ => rfl) (fun _ _ _ => rfl), liveAtBoundary_keeps (fun u => u.fbc.fixtures) (fun _ _ => rfl)
    (fun _ _ _ => rfl), done, cueAtBoundary_fixtures, s.atCue_fixtures]

theorem State.atFixtures_counter : (s.atFixtures lines).rtu.counter = s.rtu.counter + 1 := by
  rw [State.atFixtures, wseAtBoundary_keeps State.rtu (fun _ _ => rfl) (fun _ _ => rfl) (fun _ _ _ => rfl)
    (fun _ _ _ => rfl), liveAtBoundary_keeps State.rtu (fun _ _ => rfl) (fun _ _ _ => rfl), State.cueDone,
    State.beforeLive_rtu, s.turned_counter]

theorem State.atFixtures_raises : s.Raises (s.atFixtures lines) :=
  s.turned_raises.trans ((s.turned.beforeLive_raises lines).trans
    ((liveAtBoundary_raises _).trans (wseAtBoundary_raises _)))

variable {s} {id : Nat} {f : Fixture}

/-- R159: one fixture at the whole boundary: its turn, and what the boundary leaves of it. -/
theorem tickBoundary_fixture (canonical : Table.wf s.fbc.fixtures = true) (found : s.fbc.fixtures.find id = some f) :
    ∃ u : State, u.fbc.fixtures.find id = some f ∧ u.rtu.counter = s.rtu.counter + 1 ∧ s.Raises u ∧
      (fixtureTick u id).Raises (tickBoundary lines s) ∧
      (tickBoundary lines s).fbc.fixtures.find id = some f.countedDown.listened ∧
      ∀ p, (fixtureTick u id).marked p id → (tickBoundary lines s).marked p id := by
  have same := s.atFixtures_fixtures lines
  rw [← same] at canonical found
  obtain ⟨u, hu, rtu, raises, later, find, marks⟩ := fbcAtBoundary_turn canonical found
  rw [tickBoundary_eq_fixtures]
  refine ⟨u, hu, (congrArg Rtu.counter rtu).trans (s.atFixtures_counter lines),
    (s.atFixtures_raises lines).trans raises, later.after (douAtBoundary_keeps State.lkd (fun _ _ => rfl) _ _), ?_,
    fun p h => ?_⟩
  · rw [douAtBoundary_keeps State.fbc (fun _ _ => rfl)]
    exact find
  · rw [State.marked, douAtBoundary_keeps (fun t => t.port p) (fun _ _ => rfl)]
    exact marks p h

end Whole

end Sys2Proof.Machine
end

section
/-! SUPPORT. A LAYER SOURCE entry that is due alone, R118, R121, R123: what it writes of its wall, of the reference counts
and of its owner's count, and that the rest of the boundary leaves this. -/

namespace Sys2Proof.Machine

/-! ## Layers and reference counts -/

/-- The layers of a wall, as its current parameters name them. -/
def State.layersOf (s : State) (w : Nat) : Option (Vector Layer 4) := (s.wall w).map (·.layers)

/-- The reference count of a region. -/
def State.refOf (s : State) (id : Nat) : Option Nat := (s.region id).map (·.ref)

section

variable (s : State) (w v id : Nat)

theorem airUp_refOf (source : Option Nat) : (airUp source s).refOf id = s.refOf id := by
  rw [State.refOf, region_airUp, Option.map_map]
  rfl

theorem airDown_refOf (source : Option Nat) : (airDown source s).refOf id = s.refOf id := by
  rw [State.refOf, region_airDown, Option.map_map]
  rfl

theorem airMove_refOf (old new : Option Nat) : (airMove old new s).refOf id = s.refOf id := by
  unfold airMove
  split
  · rfl
  · rw [airUp_refOf, airDown_refOf]

theorem releaseHeld_refOf (held : Option Held) : (releaseHeld held s).refOf id = s.refOf id := by
  cases held with
  | none => rfl
  | some h => exact foldl_keeps (fun u => u.refOf id) _ (fun u (l : HeldLayer) => airDown_refOf u id l.layer.source) _ s

theorem modWall_refOf (f : Wall → Wall) : (modWall w f s).refOf id = s.refOf id := rfl

theorem modWall_layersOf {f : Wall → Wall} (same : ∀ x, s.wall w = some x → (f x).layers = x.layers) :
    (modWall w f s).layersOf v = s.layersOf v := by
  rw [State.layersOf, modWall_wall]
  split
  · rename_i at_w
    subst at_w
    cases found : s.wall v with
    | none => rw [State.layersOf, found]; rfl
    | some x => rw [State.layersOf, found]; exact congrArg some (same x found)
  · rfl

theorem Wall.applyPending_layers (x : Wall) : x.applyPending.layers = x.layers := by
  unfold Wall.applyPending
  split <;> rfl

/-! ## The scan engine at a boundary -/

theorem settleMode_refOf : (settleMode w s).refOf id = s.refOf id := by
  have latched (kind : LatchKind) (x : Wall) (u : State) : (latchWall w kind x u).refOf id = u.refOf id := rfl
  unfold settleMode
  split
  · rfl
  · split
    · rw [latched]
      exact foldl_keeps (fun u => u.refOf id) _ (fun u (l : Layer) => airUp_refOf u id l.source) _ _
    · split
      · rw [latched, releaseHeld_refOf, modWall_refOf]
      · dsimp only
        split
        · rfl
        · rfl

theorem settleMode_layersOf : (settleMode w s).layersOf v = s.layersOf v := by
  have latched (kind : LatchKind) (x : Wall) (u : State) : (latchWall w kind x u).layersOf v = u.layersOf v := rfl
  unfold settleMode
  split
  · rfl
  · rename_i x found
    have written (y : Wall) (same : y.layers = x.applyPending.layers) :
        (modWall w (fun _ => y) s).layersOf v = s.layersOf v :=
      modWall_layersOf s w v fun z hz => by
        obtain rfl : x = z := Option.some.inj (found.symm.trans hz)
        exact same.trans x.applyPending_layers
    split
    · rw [latched, foldl_keeps (fun u => u.layersOf v) _
        (fun u (l : Layer) => airUp_keeps (fun u => u.layersOf v) (fun _ _ => rfl) l.source u)]
      exact written _ rfl
    · split
      · rw [latched, releaseHeld_keeps (fun u => u.layersOf v) (fun _ _ => rfl)]
        exact written _ rfl
      · dsimp only
        split
        · exact written _ rfl
        · exact (latched _ _ _).trans (written _ rfl)

theorem admitAcross_layers (layer total : Nat) (walls : Table Wall) :
    ((admitAcross layer total walls).2.find v).map (·.layers) = (walls.find v).map (·.layers) := by
  induction walls generalizing total with
  | nil => rfl
  | cons e rest ih =>
    obtain ⟨k, x⟩ := e
    cases hf : x.frame with
    | none =>
      rw [admitAcross_none k rest hf, Table.find, Table.find]
      split
      · rfl
      · exact ih total
    | some f =>
      rw [admitAcross_some k rest hf]
      dsimp only
      rw [Table.find, Table.find]
      split
      · rfl
      · exact ih _

theorem Table.find_map {α β : Type} (f : Nat × α → β) (k : Nat) (t : Table α) :
    Table.find k (t.map (fun e => (e.1, f e))) = (t.find k).map (fun x => f (k, x)) := by
  induction t with
  | nil => rfl
  | cons e rest ih =>
    obtain ⟨j, x⟩ := e
    rw [List.map_cons, Table.find, Table.find]
    split
    · rename_i same
      rw [same]
      rfl
    · exact ih

theorem settleFrames_layersOf : (settleFrames s).layersOf v = s.layersOf v := by
  have all (total : Nat) (walls : Table Wall) :
      ((admitAll total walls).2.find v).map (·.layers) = (walls.find v).map (·.layers) :=
    (admitAcross_layers v 4 _ _).trans ((admitAcross_layers v 3 _ _).trans
      ((admitAcross_layers v 2 _ _).trans (admitAcross_layers v 1 _ _)))
  refine (all s.areas _).trans ?_
  rw [Table.find_map, Option.map_map]
  rfl

theorem settleShedding_layersOf : (settleShedding w s).layersOf v = s.layersOf v := by
  cases found : s.wall w with
  | none => simp only [settleShedding, found]
  | some x =>
    obtain ⟨lkd, e⟩ := settleShedding_cases found
    rw [e]
    exact modWall_layersOf s w v fun y _ => rfl

theorem wseAtBoundary_refOf : (wseAtBoundary s).refOf id = s.refOf id := by
  unfold wseAtBoundary
  dsimp only
  rw [beginSending_keeps (fun u => u.refOf id) (fun _ _ _ => rfl),
    foldl_keeps (fun u => u.refOf id) _ fun u c =>
      judgeChain_keeps (fun u => u.refOf id) (fun _ _ _ => rfl) (fun _ _ _ => rfl) c u,
    foldl_keeps (fun u => u.refOf id) _ fun u w =>
      settleShedding_keeps (fun u => u.refOf id) (fun _ _ _ => rfl) (fun _ _ _ => rfl) w u,
    settleFrames_keeps (fun u => u.refOf id) (fun _ _ _ => rfl)]
  exact foldl_keeps (fun u => u.refOf id) _ (fun u w => settleMode_refOf u w id) _ s

theorem wseAtBoundary_layersOf : (wseAtBoundary s).layersOf v = s.layersOf v := by
  have judged (u : State) (c : Nat) : (judgeChain c u).layersOf v = u.layersOf v := by
    rw [(judgeChain_onlyChains c u).eq]
    rfl
  have sending (u : State) : (beginSending u).layersOf v = u.layersOf v := rfl
  unfold wseAtBoundary
  dsimp only
  rw [sending, foldl_keeps (fun u => u.layersOf v) _ judged,
    foldl_keeps (fun u => u.layersOf v) _ fun u w => settleShedding_layersOf u w v, settleFrames_layersOf]
  exact foldl_keeps (fun u => u.layersOf v) _ (fun u w => settleMode_layersOf u w v) _ s

end

section Whole

variable (lines : BitVec 8) (s : State)

theorem tickBoundary_refOf (id : Nat) : (tickBoundary lines s).refOf id = (s.cueDone lines).refOf id := by
  rw [tickBoundary_eq_fixtures, douAtBoundary_keeps (fun u => u.refOf id) (fun _ _ => rfl),
    fbcAtBoundary_keeps (fun u => u.refOf id) (fun _ _ => rfl) (fun _ _ _ => rfl), State.atFixtures,
    wseAtBoundary_refOf, liveAtBoundary_keeps (fun u => u.refOf id) (fun _ _ => rfl) (fun _ _ _ => rfl)]

theorem tickBoundary_layersOf (w : Nat) : (tickBoundary lines s).layersOf w = (s.cueDone lines).layersOf w := by
  rw [tickBoundary_eq_fixtures, douAtBoundary_keeps (fun u => u.layersOf w) (fun _ _ => rfl),
    fbcAtBoundary_keeps (fun u => u.layersOf w) (fun _ _ => rfl) (fun _ _ _ => rfl), State.atFixtures,
    wseAtBoundary_layersOf, liveAtBoundary_keeps (fun u => u.layersOf w) (fun _ _ => rfl) (fun _ _ _ => rfl)]

end Whole

/-! ## The records of one cue -/

/-- The active records of a cue. -/
def CueEngine.records (n : Nat) (c : CueEngine) : List Active := c.active.filter (fun a => decide (a.cue = n))

theorem completeCue_records {n : Nat} {a : Active} (other : a.cue ≠ n) (s : State) :
    (completeCue a s).cue.records n = s.cue.records n := by
  have active : (completeCue a s).cue.active = s.cue.active.filter (fun x => decide (x.cue ≠ a.cue)) := by
    unfold completeCue
    dsimp only
    split
    · obtain ⟨follow, started⟩ := CueEngine.startFollow_onlyFollow
        { s.cue with active := s.cue.active.filter (fun x => decide (x.cue ≠ a.cue)) }
      exact congrArg CueEngine.active started
    · rfl
  rw [CueEngine.records, active, List.filter_filter]
  refine List.filter_congr fun x _ => ?_
  by_cases mine : x.cue = n
  · simp only [mine, other.symm, ne_eq, not_false_eq_true, decide_true, Bool.and_self]
  · simp only [mine, decide_false, Bool.false_and]

/-- R123: a cue with something outstanding does not complete. -/
theorem judge_records {n : Nat} (firing : Option Nat) (s : State) (busy : ∀ a ∈ s.cue.records n, 0 < a.outstanding) :
    (judge firing s).cue.records n = s.cue.records n := by
  unfold judge
  refine List.foldlRecOn (motive := fun u : State => u.cue.records n = s.cue.records n) _ _ rfl fun u hu a mem => ?_
  refine (completeCue_records (fun mine => ?_) u).trans hu
  obtain ⟨active, completes⟩ := List.mem_filter.mp mem
  have idle : a.outstanding = 0 := of_decide_eq_true (Bool.and_eq_true_iff.mp completes).1
  have outstanding := busy a (List.mem_filter.mpr ⟨active, decide_eq_true mine⟩)
  omega

theorem modCount_records (n : Nat) (f : Nat → Nat) (s : State) :
    (modCount n f s).cue.records n = (s.cue.records n).map (fun a => { a with outstanding := f a.outstanding }) := by
  unfold CueEngine.records modCount
  rw [State.setCue_cue, List.filter_map]
  have same : (fun a : Active => decide (a.cue = n)) ∘
      (fun a : Active => if a.cue = n then { a with outstanding := f a.outstanding } else a) =
        fun a => decide (a.cue = n) := by
    funext a
    by_cases mine : a.cue = n
    · simp only [Function.comp, mine, if_true]
    · simp only [Function.comp, mine, if_false]
  rw [same]
  refine List.map_congr_left fun a mem => if_pos ?_
  exact of_decide_eq_true (List.mem_filter.mp mem).2

/-! ## The entry -/

theorem changeLayer_layersOf {w : Nat} {x : Wall} {s : State} (found : s.wall w = some x) (layer : Nat) (l : Layer) :
    (changeLayer w layer l s).layersOf w = some (put x.layers (layer - 1) l) := by
  rw [changeLayer, found, State.layersOf, modWall_wall, if_pos rfl, airMove_keeps (fun u => u.wall w) (fun _ _ => rfl),
    found]
  rfl

theorem changeLayer_refOf (w layer id : Nat) (l : Layer) (s : State) :
    (changeLayer w layer l s).refOf id = s.refOf id := by
  unfold changeLayer
  split
  · rfl
  · rw [modWall_refOf, airMove_refOf]

theorem refDown_refOf (a : Action) (id : Nat) (s : State) :
    (refDown a s).refOf id = (s.refOf id).map (fun n => n - if a.region = some id then 1 else 0) := by
  rw [State.refOf, region_refDown, State.refOf, Option.map_map, Option.map_map]
  congr 1
  funext r
  by_cases named : a.region = some id
  · simp only [Function.comp, named, if_true]
  · simp only [Function.comp, named, if_false, Nat.sub_zero]

section Entry

variable {e : WaitEntry} {w l : Nat} {source : Option Nat} {rect : Rect} {px py : Int} {x : Wall} {s : State}
  (action : e.action = .layerSource w l source rect px py) (found : s.wall w = some x)
include action found

theorem runDue_layerSource :
    runDue e s = judge none (lowerCount (ownerOf e.owner)
      (refDown e.action (changeLayer w l ⟨source, rect, px, py⟩ s))) := by
  have present : s.wse.walls.has w = true := Option.isSome_iff_exists.mpr ⟨x, found⟩
  have run : runAction e.owner e.position true e.action s = changeLayer w l ⟨source, rect, px, py⟩ s := by
    simp only [runAction, action, Action.skipped, Action.wall, present, if_true, Action.effect]
  rw [runDue, run]

theorem runDue_layerSource_layersOf :
    (runDue e s).layersOf w = some (put x.layers (l - 1) ⟨source, rect, px, py⟩) := by
  rw [runDue_layerSource action found, judge_keeps (fun u => u.layersOf w) (fun _ _ _ => rfl) (fun _ _ _ => rfl),
    lowerCount_keeps (fun u => u.layersOf w) (fun _ _ _ => rfl), refDown_keeps (fun u => u.layersOf w) (fun _ _ => rfl),
    changeLayer_layersOf found]

theorem runDue_layerSource_refOf (id : Nat) :
    (runDue e s).refOf id = (s.refOf id).map (fun n => n - if source = some id then 1 else 0) := by
  have region : e.action.region = source := by rw [action]; rfl
  rw [runDue_layerSource action found, judge_keeps (fun u => u.refOf id) (fun _ _ _ => rfl) (fun _ _ _ => rfl),
    lowerCount_keeps (fun u => u.refOf id) (fun _ _ _ => rfl), refDown_refOf, changeLayer_refOf, region]

theorem runDue_layerSource_records {n : Nat} (owner : e.owner = some n)
    (busy : ∀ a ∈ s.cue.records n, 1 < a.outstanding) :
    (runDue e s).cue.records n = (s.cue.records n).map (fun a => { a with outstanding := a.outstanding - 1 }) := by
  let executed := refDown e.action (changeLayer w l ⟨source, rect, px, py⟩ s)
  have lowered : (modCount n (· - 1) executed).cue.records n =
      (s.cue.records n).map (fun a => { a with outstanding := a.outstanding - 1 }) := by
    rw [modCount_records, refDown_keeps State.cue (fun _ _ => rfl), changeLayer_keeps State.cue (fun _ _ => rfl)
      (fun _ _ _ => rfl)]
  rw [runDue_layerSource action found, owner]
  refine (judge_records none (modCount n (· - 1) executed) fun a mem => ?_).trans lowered
  obtain ⟨b, before, rfl⟩ := List.mem_map.mp (lowered ▸ mem)
  exact Nat.sub_pos_of_lt (busy b before)

end Entry

/-! ## The entry at a boundary at which nothing else happens -/

/-- With no fade running and none pending, the advance moves the engine alone. -/
theorem State.afterTime_noFades {s : State} (advances : 0 < s.cue.advance) (fades : s.lvp.fades = []) :
    s.afterTime = judge none (s.setCue s.cue.advanced) := by
  have still (u : State) (h : u.lvp.fades = []) : advanceFades s.cue.advance u = u := by
    rw [advanceFades, h]
    rfl
  rw [State.afterTime, if_neg (Nat.ne_of_gt advances), advanceTime_eq, still (s.setCue s.cue.unstepped) fades,
    CueEngine.advanced_eq advances]
  rfl

theorem State.afterDue_alone {s : State} {e : WaitEntry} (advances : 0 < s.cue.advance) (fades : s.lvp.fades = [])
    (manual : s.lvp.manual = [])
    (alone : s.cue.waits.filter (fun d => decide (d.remaining ≤ s.cue.advance)) = [e]) :
    s.afterDue = runDue e (judge none (s.setCue s.cue.advanced)) := by
  have time := State.afterTime_noFades advances fades
  have none_pending : s.afterTime.lvp.manual = [] := by
    rw [time, judge_keeps State.lvp (fun _ _ _ => rfl) (fun _ _ _ => rfl)]
    exact manual
  rw [State.afterDue, dueEntries_single advances _ alone, startManual_none none_pending, time]
  rfl

end Sys2Proof.Machine
end

section
/-! PROOF. Boundaries that end waits, the follow timer, fades, keep-alives and silences (O20). -/

namespace Sys2Proof.Machine

/-! ## Each command is the boundary, where its end is due -/

section Commands

variable {s : State} (lines : BitVec 8) (ticks : s.rtu.gen ≠ .locked)
include ticks

theorem exec_waitEntryDue {e : WaitEntry} (mem : e ∈ s.cue.waits) (advances : 0 < s.cue.advance)
    (due : e.remaining ≤ s.cue.advance) : exec (.waitEntryDue lines) s = .next (tickBoundary lines s) := by
  show execWaitEntryDue lines s = _
  rw [execWaitEntryDue, boundaryWhen_due lines s _ ticks]
  rw [dueEntries_isEmpty_of_due advances _ mem due]
  rfl

theorem exec_followExpiry {f : Follow} (noRequest : s.cue.pending = none) (runs : s.cue.follow = some f)
    (advances : 0 < s.cue.advance) (due : f.remaining ≤ s.cue.advance) :
    exec (.followExpiry lines) s = .next (tickBoundary lines s) := by
  show execFollowExpiry lines s = _
  rw [execFollowExpiry, boundaryWhen_due lines s _ ticks]
  simp only [CueEngine.followExpires, noRequest, runs, advances, due, decide_true, Bool.and_self]

theorem exec_fadeEnd {target : Nat} {f : Fade} (runs : s.lvp.fades.find target = some f) (advances : 0 < s.cue.advance)
    (due : f.duration ≤ f.elapsed + s.cue.advance) :
    exec (.fadeEnd target lines) s = .next (tickBoundary lines s) := by
  show execFadeEnd target lines s = _
  rw [execFadeEnd, boundaryWhen_due lines s _ ticks]
  simp only [State.fadeEnds, runs, advances, due, decide_true, Bool.and_self]

theorem exec_keepAliveExpiry {id : Nat} {f : Fixture} (found : s.fbc.fixtures.find id = some f)
    (ends : f.countdown ≤ 1) : exec (.keepAliveExpiry id lines) s = .next (tickBoundary lines s) := by
  show execKeepAliveExpiry id lines s = _
  rw [execKeepAliveExpiry, boundaryWhen_due lines s _ ticks]
  simp only [State.keepAliveEnds, found, ends, decide_true]

theorem exec_silenceLimit {id : Nat} {f : Fixture} (found : s.fbc.fixtures.find id = some f)
    (watched : 0 < f.silenceLimit) (heard : f.state ≠ .silent) (limit : f.silenceLimit ≤ f.silence + 1) :
    exec (.silenceLimit id lines) s = .next (tickBoundary lines s) := by
  show execSilenceLimit id lines s = _
  rw [execSilenceLimit, boundaryWhen_due lines s _ ticks]
  simp only [State.silenceEnds, found, watched, heard, limit, ne_eq, not_false_eq_true, decide_true, Bool.and_self]

end Commands

/-! ## What the engine leaves, at the whole boundary -/

section Whole

variable {s : State} (lines : BitVec 8)

/-- With no request and no standby, the engine leaves what stands before it is chosen what fires, but for the timer. -/
theorem State.cueDone_noStandby (noRequest : s.cue.pending = none) (noStandby : s.cue.standby = none) :
    ∃ f, s.cueDone lines =
      (s.atCue lines).afterDue.setCue { (s.atCue lines).afterDue.cue with follow := f } := by
  obtain ⟨rises, done⟩ := s.cueDone_eq lines
  rw [done]
  rw [← s.atCue_cue lines] at noRequest noStandby
  exact cueAtBoundary_noStandby noRequest rises noStandby

theorem State.cueDone_lists (noRequest : s.cue.pending = none) (noStandby : s.cue.standby = none)
    (advances : 0 < s.cue.advance) :
    (s.cueDone lines).cue.waits = laterEntries s.cue.advance s.cue.waits ∧ (s.cueDone lines).cue.step = none := by
  obtain ⟨f, done⟩ := s.cueDone_noStandby lines noRequest noStandby
  have judged := (s.atCue lines).afterDue_judgedTo
  rw [s.atCue_cue] at judged
  rw [done]
  refine ⟨judged.waits.trans ?_, judged.step.trans s.cue.advanced_step⟩
  rw [CueEngine.advanced_eq advances]
  rfl

/-- With no manual fade pending and no wait entry, the engine leaves the levels as the advance of the fades does. -/
theorem State.cueDone_lvp (noRequest : s.cue.pending = none) (noStandby : s.cue.standby = none)
    (manual : s.lvp.manual = []) (waits : s.cue.waits = []) (advances : 0 < s.cue.advance) :
    (s.cueDone lines).lvp =
      (advanceFades s.cue.advance ((s.atCue lines).setCue s.cue.unstepped)).lvp := by
  obtain ⟨f, done⟩ := s.cueDone_noStandby lines noRequest noStandby
  have lvp := State.afterDue_lvp (s := s.atCue lines) ((s.atCue_manual lines).trans manual)
    ((congrArg CueEngine.waits (s.atCue_cue lines)).trans waits) ((s.atCue_cue lines).symm ▸ advances)
  rw [s.atCue_cue] at lvp
  rw [done]
  exact lvp

end Whole

/-! ## The ends -/

section Ends

variable {s : State} (lines : BitVec 8)

/-- A LAYER SOURCE entry that is due alone. -/
theorem tickBoundary_layerSource {e : WaitEntry} {w l : Nat} {source : Option Nat} {rect : Rect} {px py : Int}
    {x : Wall} (noRequest : s.cue.pending = none) (noStandby : s.cue.standby = none) (manual : s.lvp.manual = [])
    (fades : s.lvp.fades = []) (advances : 0 < s.cue.advance)
    (alone : s.cue.waits.filter (fun d => decide (d.remaining ≤ s.cue.advance)) = [e])
    (action : e.action = .layerSource w l source rect px py) (found : s.wall w = some x) :
    (tickBoundary lines s).layersOf w = some (put x.layers (l - 1) ⟨source, rect, px, py⟩) ∧
      (∀ id, (tickBoundary lines s).refOf id =
        (s.refOf id).map (fun n => n - if source = some id then 1 else 0)) ∧
      ∀ n, e.owner = some n → (∀ a ∈ s.cue.records n, 1 < a.outstanding) →
        (tickBoundary lines s).cue.records n =
          (s.cue.records n).map (fun a => { a with outstanding := a.outstanding - 1 }) := by
  obtain ⟨f, done⟩ := s.cueDone_noStandby lines noRequest noStandby
  have sole := State.afterDue_alone (s := s.atCue lines) (e := e)
    (by rw [s.atCue_cue]; exact advances) (by rw [s.atCue_fades]; exact fades) (by rw [s.atCue_manual]; exact manual)
    (by rw [s.atCue_cue]; exact alone)
  rw [s.atCue_cue] at sole
  let u := judge none ((s.atCue lines).setCue s.cue.advanced)
  have wall : u.wall w = some x :=
    (judge_keeps (fun t => t.wall w) (fun _ _ _ => rfl) (fun _ _ _ => rfl) none _).trans
      ((s.atCue_wall lines w).trans found)
  refine ⟨?_, fun id => ?_, fun n owner busy => ?_⟩
  · rw [tickBoundary_layersOf, done, sole]
    exact runDue_layerSource_layersOf action wall
  · have ref : u.refOf id = s.refOf id :=
      (judge_keeps (fun t => t.refOf id) (fun _ _ _ => rfl) (fun _ _ _ => rfl) none _).trans
        (congrArg (Option.map Region.ref) (s.atCue_region lines id))
    rw [tickBoundary_refOf, done, sole, ← ref]
    exact runDue_layerSource_refOf action wall id
  · have kept : s.cue.advanced.records n = s.cue.records n :=
      congrArg (List.filter fun a : Active => decide (a.cue = n)) s.cue.advanced_active
    have records : u.cue.records n = s.cue.records n :=
      (judge_records none ((s.atCue lines).setCue s.cue.advanced) fun a mem =>
        Nat.lt_of_succ_lt (busy a (kept ▸ mem))).trans kept
    rw [tickBoundary_cue, done, sole]
    exact (runDue_layerSource_records action wall owner fun a mem => busy a (records ▸ mem)).trans
      (congrArg _ records)

/-- The follow timer. -/
theorem tickBoundary_expiry {f : Follow} (noRequest : s.cue.pending = none) (none_active : s.cue.active = [])
    (runs : s.cue.follow = some f) (advances : 0 < s.cue.advance) (due : f.remaining ≤ s.cue.advance) :
    (∀ n d actions, s.cue.standby = some n → s.cue.cues.find n = some ⟨.follow d, actions⟩ →
      (tickBoundary lines s).cue.recent = some n ∧
        (tickBoundary lines s).cue.standby = (s.cue.cues.firstFrom (n + 1)).map (·.1)) ∧
      (s.cue.standby = none →
        (tickBoundary lines s).cue.follow = none ∧ (tickBoundary lines s).cue.recent = s.cue.recent) := by
  obtain ⟨rises, done⟩ := s.cueDone_eq lines
  rw [tickBoundary_cue, done]
  have same := s.atCue_cue lines
  generalize s.atCue lines = u at same ⊢
  rw [← same] at noRequest none_active runs advances due ⊢
  refine ⟨fun n d actions standby stored =>
    cueAtBoundary_expiry_fires noRequest none_active runs advances due rises standby stored, fun noStandby => ?_⟩
  rw [cueAtBoundary_expiry_noStandby noRequest none_active runs advances due rises noStandby]
  exact ⟨rfl, u.cue.advanced_recent⟩

/-- A fade, among others. -/
theorem tickBoundary_fades (noRequest : s.cue.pending = none) (noStandby : s.cue.standby = none)
    (manual : s.lvp.manual = []) (waits : s.cue.waits = []) (advances : 0 < s.cue.advance)
    (canonical : Table.wf s.lvp.fades = true) :
    (∀ u, (tickBoundary lines s).lvp.fades.find u = (s.lvp.fades.find u).bind (Fade.advanced s.cue.advance)) ∧
      ∀ u, u ≤ 788 → (tickBoundary lines s).level u =
        (s.lvp.fades.find u).elim (s.level u) (fun f => f.levelAfter s.cue.advance (s.curve f.curve)) := by
  have lvp := (tickBoundary_lvp lines s).trans (s.cueDone_lvp lines noRequest noStandby manual waits advances)
  have fades := s.atCue_fades lines
  let v := (s.atCue lines).setCue s.cue.unstepped
  have canonical : Table.wf v.lvp.fades = true := fades.symm ▸ canonical
  refine ⟨fun u => ?_, fun u inTable => ?_⟩
  · rw [lvp, find_advanceFades s.cue.advance canonical u]
    exact congrArg (fun t => (Table.find u t).bind _) fades
  · have level : (tickBoundary lines s).level u = (advanceFades s.cue.advance v).level u :=
      congrArg (fun l : Lvp => at_ l.targets u 0) lvp
    have curve (c : Nat) : v.curve c = s.curve c := s.atCue_curve lines c
    have before : v.level u = s.level u := s.atCue_level lines u
    rw [level, level_advanceFades s.cue.advance canonical inTable, before, ← fades]
    simp only [curve]
    rfl

end Ends

/-! ## The statement -/

/-- Settles O20: the Cue Engine's work without and with a firing, and each end as one turn of its block within the
boundary. -/
theorem boundaryEnds : Obligations.BoundaryEnds := by
  unfold Obligations.BoundaryEnds
  refine ⟨fun rises s noRequest noStandby => cueAtBoundary_noStandby noRequest rises noStandby,
    fun a waits advances => dueEntries_spec advances waits, runDue_eq, fun lines s ticks => ?_⟩
  have counter := tickBoundary_counter lines s
  have keeps := tickBoundary_boundaryKeeps lines s
  refine ⟨?alone, rfl, ?due, ?follow, ?fade, fun id f canonical found => ⟨fun ends => ?keepAlive,
    fun watched heard limit => ?silence⟩⟩
  case alone =>
    intro e w l source rect px py x noRequest noStandby manual fades advances alone action found
    obtain ⟨mem, due⟩ := List.mem_filter.mp (alone ▸ List.mem_singleton_self e :
      e ∈ s.cue.waits.filter fun d => decide (d.remaining ≤ s.cue.advance))
    obtain ⟨layers, refs, records⟩ :=
      tickBoundary_layerSource lines noRequest noStandby manual fades advances alone action found
    obtain ⟨y, wall, layers⟩ := Option.map_eq_some_iff.mp layers
    refine ⟨tickBoundary lines s, y, exec_waitEntryDue lines ticks mem advances (of_decide_eq_true due), wall, layers,
      fun id => (refs id).trans (Option.map_map _ _ _), fun b active owner busy => ?_⟩
    have mine {c : Active} (h : c ∈ s.cue.records b.cue) : c ∈ s.cue.active ∧ c.cue = b.cue :=
      (List.mem_filter.mp h).imp_right of_decide_eq_true
    have after := records b.cue owner fun c h => busy c (mine h).1 (mine h).2
    refine List.mem_of_mem_filter (p := fun a => decide (a.cue = b.cue)) ?_
    show _ ∈ (tickBoundary lines s).cue.records b.cue
    rw [after]
    exact List.mem_map_of_mem (List.mem_filter.mpr ⟨active, decide_eq_true rfl⟩)
  case due =>
    rintro noRequest noStandby ⟨e, mem, advances, due⟩
    obtain ⟨waits, step⟩ := s.cueDone_lists lines noRequest noStandby advances
    rw [← tickBoundary_cue] at waits step
    exact ⟨_, exec_waitEntryDue lines ticks mem advances due, counter, waits, step, keeps⟩
  case follow =>
    intro f noRequest none_active runs advances due
    obtain ⟨fires, ends⟩ := tickBoundary_expiry lines noRequest none_active runs advances due
    exact ⟨_, exec_followExpiry lines ticks noRequest runs advances due, counter, keeps, fires, ends⟩
  case fade =>
    intro target f inTable runs advances due manual waits noRequest noStandby canonical
    obtain ⟨find, level⟩ := tickBoundary_fades lines noRequest noStandby manual waits advances canonical
    refine ⟨_, exec_fadeEnd lines ticks runs advances due, ?_, ?_, counter, keeps, fun u g inTable runs short => ?_,
      fun u inTable free => ?_⟩
    · rw [level target inTable, runs]
      exact if_pos due
    · rw [find, runs]
      exact if_pos due
    · have on : ¬g.duration ≤ g.elapsed + s.cue.advance := Nat.not_le.mpr short
      refine ⟨?_, ?_⟩
      · rw [find, runs]
        exact congrArg (Option.map Fade.elapsed) (if_neg on)
      · rw [level u inTable, runs]
        exact if_neg on
    · rw [level u inTable, free]
      rfl
  case keepAlive =>
    obtain ⟨u, hu, -, -, -, find, marks⟩ := tickBoundary_fixture lines canonical found
    have listened := f.countedDown.listened_eq
    have counted : f.countedDown = { f with countdown := f.keepAlive } := if_pos ends
    refine ⟨_, _, exec_keepAliveExpiry lines ticks found ends, find, ?_, ?_, marks _ (fixtureTick_marks hu ends),
      counter, keeps⟩
    · rw [listened, counted]
    · rw [listened, counted]
  case silence =>
    obtain ⟨u, hu, count, before, after, find, -⟩ := tickBoundary_fixture lines canonical found
    have counted := f.countedDown_eq
    have silent : f.countedDown.listened = { f.countedDown with silence := f.silence + 1, state := .silent } := by
      rw [counted]
      simp only [Fixture.listened, watched, heard, limit, and_self, if_true, ne_eq, not_false_eq_true]
    refine ⟨_, _, exec_silenceLimit lines ticks found watched heard limit, find, ?_, ?_, ?_, ?_, counter, keeps⟩
    · rw [silent]
    · rw [silent]
    · rw [silent, counted]
    · obtain ⟨before, before_eq⟩ := before
      obtain ⟨later, later_eq⟩ := after
      have turn := fixtureTick_lkd hu watched heard limit
      rw [count, before_eq] at turn
      exact ⟨before, later, later_eq.trans (congrArg (later.foldl Lkd.raise) turn)⟩

end Sys2Proof.Machine
end

section
/-! SUPPORT. The arithmetic of a fade, R135: the share of the way that a curve gives at a moment, and the level at a
share of the way. -/

namespace Sys2Proof.Machine

theorem at_default {α : Type} {n i : Nat} (v : Vector α n) (d d' : α) (inTable : i < n) : at_ v i d = at_ v i d' := by
  simp [at_, inTable]

/-! ## Curves, R136 -/

/-- A curve runs from 0 to 65535 and never falls. -/
structure RisingCurve (curve : Vector Nat 17) : Prop where
  first : at_ curve 0 0 = 0
  last : at_ curve 16 0 = 65535
  rises : ∀ i, i < 16 → at_ curve i 0 ≤ at_ curve (i + 1) 0

/-- R135: the curve `q` parts of 65536 along the way, on the straight line between the two points around it. -/
def curveAt (curve : Vector Nat 17) (q : Nat) : Nat :=
  at_ curve (q / 4096) 0 + (at_ curve (q / 4096 + 1) 0 - at_ curve (q / 4096) 0) * (q - 4096 * (q / 4096)) / 4096

theorem elapsedShare_lt {n d : Nat} (running : n < d) : 65536 * n / d < 65536 :=
  Nat.div_lt_of_lt_mul (by rw [Nat.mul_comm d]; exact Nat.mul_lt_mul_of_pos_left running (by decide))

theorem curveShare_eq_curveAt (curve : Vector Nat 17) {n d : Nat} (running : n < d) :
    curveShare curve n d = curveAt curve (65536 * n / d) := by
  have short := elapsedShare_lt running
  simp only [curveShare, curveAt, Nat.mod_def]
  rw [at_default curve 65535 0 (by omega), at_default curve 65535 0 (by omega)]

/-- The line from `x` up to `y` stays between them. -/
theorem line_bounds {x y r : Nat} (up : x ≤ y) (inside : r ≤ 4096) :
    x ≤ x + (y - x) * r / 4096 ∧ x + (y - x) * r / 4096 ≤ y := by
  have part : (y - x) * r / 4096 ≤ y - x :=
    Nat.div_le_of_le_mul (by rw [Nat.mul_comm 4096]; exact Nat.mul_le_mul_left _ inside)
  omega

namespace RisingCurve

variable {curve : Vector Nat 17} (rising : RisingCurve curve)
include rising

theorem mono {i j : Nat} (le : i ≤ j) (inTable : j ≤ 16) : at_ curve i 0 ≤ at_ curve j 0 := by
  induction j, le using Nat.le_induction with
  | base => exact Nat.le_refl _
  | succ j _ ih => exact (ih (Nat.le_of_succ_le inTable)).trans (rising.rises j inTable)

/-- Each share of the way lies between the two points around it. -/
theorem curveAt_bounds {q : Nat} (short : q < 65536) :
    at_ curve (q / 4096) 0 ≤ curveAt curve q ∧ curveAt curve q ≤ at_ curve (q / 4096 + 1) 0 :=
  line_bounds (rising.rises _ (by omega)) (by omega)

theorem curveAt_le {q : Nat} (short : q < 65536) : curveAt curve q ≤ 65535 :=
  calc curveAt curve q
    _ ≤ at_ curve (q / 4096 + 1) 0 := (rising.curveAt_bounds short).2
    _ ≤ at_ curve 16 0 := rising.mono (by omega) (Nat.le_refl 16)
    _ = 65535 := rising.last

/-- Within a segment the line rises; from one segment to a later one, the points between do. -/
theorem curveAt_mono {q q' : Nat} (le : q ≤ q') (short : q' < 65536) : curveAt curve q ≤ curveAt curve q' := by
  have segments : q / 4096 ≤ q' / 4096 := Nat.div_le_div_right le
  rcases segments.eq_or_lt with same | later
  · unfold curveAt
    rw [same]
    exact Nat.add_le_add_left (Nat.div_le_div_right (Nat.mul_le_mul_left _ (Nat.sub_le_sub_right le _))) _
  · calc curveAt curve q
      _ ≤ at_ curve (q / 4096 + 1) 0 := (rising.curveAt_bounds (le.trans_lt short)).2
      _ ≤ at_ curve (q' / 4096) 0 := rising.mono later (by omega)
      _ ≤ curveAt curve q' := (rising.curveAt_bounds short).1

theorem curveAt_zero : curveAt curve 0 = 0 := by
  simp [curveAt, rising.first]

end RisingCurve

/-! ## The level, R135 -/

theorem part_le {x w : Nat} (inRange : w ≤ 65535) : x * w / 65535 ≤ x :=
  Nat.div_le_of_le_mul (by rw [Nat.mul_comm 65535]; exact Nat.mul_le_mul_left _ inRange)

theorem part_mono {x v w : Nat} (le : v ≤ w) : x * v / 65535 ≤ x * w / 65535 :=
  Nat.div_le_div_right (Nat.mul_le_mul_left _ le)

theorem between_up {s t : Nat} (up : s ≤ t) (w : Nat) : between s t w = s + (t - s) * w / 65535 := if_pos up

theorem between_down {s t : Nat} (down : t < s) (w : Nat) : between s t w = s - (s - t) * w / 65535 :=
  if_neg (Nat.not_le.mpr down)

theorem between_start (s t : Nat) : between s t 0 = s := by
  simp [between]

theorem fadeLevel_eq (curve : Vector Nat 17) (f : Fade) {n : Nat} (running : n < f.duration) :
    fadeLevel curve f n = between f.start f.stop (curveAt curve (65536 * n / f.duration)) :=
  congrArg _ (curveShare_eq_curveAt curve running)

theorem RisingCurve.fadeLevel_up {curve : Vector Nat 17} (rising : RisingCurve curve) {f : Fade} {n : Nat}
    (running : n < f.duration) (up : f.start ≤ f.stop) :
    f.start ≤ fadeLevel curve f n ∧ fadeLevel curve f n ≤ f.stop := by
  have part := part_le (x := f.stop - f.start) (rising.curveAt_le (elapsedShare_lt running))
  rw [fadeLevel_eq curve f running, between_up up]
  omega

theorem RisingCurve.fadeLevel_down {curve : Vector Nat 17} (rising : RisingCurve curve) {f : Fade} {n : Nat}
    (running : n < f.duration) (down : f.stop < f.start) :
    f.stop ≤ fadeLevel curve f n ∧ fadeLevel curve f n ≤ f.start := by
  have part := part_le (x := f.start - f.stop) (rising.curveAt_le (elapsedShare_lt running))
  rw [fadeLevel_eq curve f running, between_down down]
  omega

theorem RisingCurve.fadeLevel_zero {curve : Vector Nat 17} (rising : RisingCurve curve) (f : Fade)
    (running : 0 < f.duration) : fadeLevel curve f 0 = f.start := by
  rw [fadeLevel_eq curve f running, Nat.mul_zero, Nat.zero_div, rising.curveAt_zero, between_start]

/-- R135: a fade moves only toward its end. -/
theorem RisingCurve.fadeLevel_toward {curve : Vector Nat 17} (rising : RisingCurve curve) (f : Fade) {m n : Nat}
    (le : m ≤ n) (running : n < f.duration) :
    (f.start ≤ f.stop → fadeLevel curve f m ≤ fadeLevel curve f n) ∧
      (f.stop < f.start → fadeLevel curve f n ≤ fadeLevel curve f m) := by
  have share : curveAt curve (65536 * m / f.duration) ≤ curveAt curve (65536 * n / f.duration) :=
    rising.curveAt_mono (Nat.div_le_div_right (Nat.mul_le_mul_left _ le)) (elapsedShare_lt running)
  rw [fadeLevel_eq curve f running, fadeLevel_eq curve f (le.trans_lt running)]
  refine ⟨fun up => ?_, fun down => ?_⟩
  · rw [between_up up, between_up up]
    exact Nat.add_le_add_left (part_mono share) _
  · rw [between_down down, between_down down]
    exact Nat.sub_le_sub_left (part_mono share) _

end Sys2Proof.Machine
end

section
/-! SUPPORT. A fade begins, R133: each way it can go, as an equation. -/

namespace Sys2Proof.Machine

theorem Table.erase_free {α : Type} {k : Nat} {t : Table α} (free : t.find k = none) : t.erase k = t := by
  induction t with
  | nil => rfl
  | cons e rest ih =>
    obtain ⟨j, x⟩ := e
    by_cases same : k = j
    · simp [Table.find, same] at free
    · rw [Table.find, if_neg same] at free
      rw [Table.erase, if_neg same, ih free]

/-! ## The outstanding counts, R123 -/

/-- The engine with the outstanding count of every active record rewritten. -/
def CueEngine.recounted (c : CueEngine) (f : Active → Nat) : CueEngine :=
  { c with active := c.active.map (fun a => { a with outstanding := f a }) }

theorem CueEngine.recounted_same (c : CueEngine) : c.recounted Active.outstanding = c := by
  show { c with active := c.active.map id } = c
  rw [List.map_id]

theorem CueEngine.recounted_recounted (c : CueEngine) (f g : Active → Nat) :
    (c.recounted f).recounted g = c.recounted fun a => g { a with outstanding := f a } := by
  simp only [recounted, List.map_map, Function.comp_def]

theorem CueEngine.recounted_congr {c : CueEngine} {f g : Active → Nat} (same : ∀ a, f a = g a) :
    c.recounted f = c.recounted g := congrArg c.recounted (funext same)

theorem modCount_eq (n : Nat) (f : Nat → Nat) (s : State) :
    modCount n f s =
      s.setCue (s.cue.recounted fun a => if a.cue = n then f a.outstanding else a.outstanding) := by
  have record (a : Active) : (if a.cue = n then { a with outstanding := f a.outstanding } else a) =
      { a with outstanding := if a.cue = n then f a.outstanding else a.outstanding } := by
    split <;> rfl
  simp only [modCount, CueEngine.recounted, record]

/-- What an owner has in an active record: 1 where the record is the owner's, 0 elsewhere. -/
def Owner.share (o : Option Owner) (a : Active) : Nat := if o = some (.cue a.cue) then 1 else 0

theorem Owner.share_cue (n : Nat) (a : Active) : Owner.share (some (.cue n)) a = if a.cue = n then 1 else 0 := by
  by_cases same : a.cue = n
  · simp only [share, same, if_true]
  · simp only [share, Option.some.injEq, Owner.cue.injEq, same, Ne.symm same, if_false]

theorem lowerCount_eq (o : Owner) (s : State) :
    lowerCount o s = s.setCue (s.cue.recounted fun a => a.outstanding - Owner.share (some o) a) := by
  cases o with
  | cue n =>
    rw [lowerCount, modCount_eq]
    refine congrArg s.setCue (CueEngine.recounted_congr fun a => ?_)
    rw [Owner.share_cue]
    split <;> rfl
  | manual => exact congrArg s.setCue s.cue.recounted_same.symm

theorem raiseCount_eq (o : Owner) (s : State) :
    raiseCount o s = s.setCue (s.cue.recounted fun a => a.outstanding + Owner.share (some o) a) := by
  cases o with
  | cue n =>
    rw [raiseCount, modCount_eq]
    refine congrArg s.setCue (CueEngine.recounted_congr fun a => ?_)
    rw [Owner.share_cue]
    split <;> rfl
  | manual => exact congrArg s.setCue s.cue.recounted_same.symm

/-! ## Takeover, R133 -/

/-- The owner of the fade that runs on a target. -/
def State.fadeOwner (s : State) (target : Nat) : Option Owner := (s.lvp.fades.find target).map (·.owner)

/-- The state with the slot of a target freed, and the count of the fade's owner lowered. -/
def State.freed (s : State) (target : Nat) : State :=
  (s.setLvp { s.lvp with fades := s.lvp.fades.erase target }).setCue
    (s.cue.recounted fun a => a.outstanding - Owner.share (s.fadeOwner target) a)

theorem removeFade_eq (target : Nat) (s : State) : removeFade target s = s.freed target := by
  unfold removeFade State.freed State.fadeOwner
  split
  · rename_i free
    rw [Table.erase_free free, free]
    exact congrArg s.setCue s.cue.recounted_same.symm
  · rename_i f found
    rw [lowerCount_eq, found]
    rfl

/-! ## Placement, cut and overflow, R133 -/

/-- R133: the fade lasts, and a slot is free once the target's own is. -/
abbrev State.placesFade (s : State) (target duration : Nat) : Prop :=
  0 < duration ∧ (s.lvp.fades.erase target).length < 256

section Start

variable {s : State} {target duration : Nat} (stop curve : Nat) (owner : Owner)

theorem startFade_placed (placed : s.placesFade target duration) :
    startFade target stop duration curve owner s =
      raiseCount owner ((s.freed target).setLvp { s.lvp with
        fades := (s.lvp.fades.erase target).insert target ⟨s.level target, stop, duration, 0, curve, owner⟩ }) := by
  obtain ⟨lasts, slot⟩ := placed
  rw [startFade, removeFade_eq, if_neg lasts.ne']
  exact if_pos slot

theorem startFade_notPlaced (notPlaced : ¬s.placesFade target duration) :
    startFade target stop duration curve owner s =
      let t := setLevel target stop (s.freed target)
      t.setLvp { t.lvp with fadeOverflow := t.lvp.fadeOverflow || decide (0 < duration) } := by
  rw [startFade, removeFade_eq]
  by_cases cut : duration = 0
  · simp only [cut, if_true, Nat.lt_irrefl, decide_false, Bool.or_false]
    rfl
  · have lasts := Nat.pos_of_ne_zero cut
    have full : ¬(s.freed target).lvp.fades.length < 256 := fun slot => notPlaced ⟨lasts, slot⟩
    simp only [cut, full, lasts, if_false, decide_true, Bool.or_true]

end Start

/-! ## A written level, R143 -/

theorem setLevel_fadeOverflow (target v : Nat) (s : State) :
    (setLevel target v s).lvp.fadeOverflow = s.lvp.fadeOverflow := by
  obtain ⟨_, ⟨_, _, _, written⟩, _⟩ := setLevel_onlyOutputs target v s
  rw [written]
  rfl

theorem setLevel_frame (target v : Nat) (s : State) :
    setLevel target v s = { s with
      cue := (setLevel target v s).cue, lvp := (setLevel target v s).lvp, fbc := (setLevel target v s).fbc } := by
  obtain ⟨_, ⟨_, _, _, written⟩, _⟩ := setLevel_onlyOutputs target v s
  rw [written]
  rfl

end Sys2Proof.Machine
end

section
/-! PROOF. Fades: their arithmetic, their start, and the pending manual fades (O50). -/

namespace Sys2Proof.Machine

/-! ## What a fade leaves as it begins, R133 -/

/-- What O50 says of the state `t` in which a fade has begun in `s`. -/
structure State.fadeBegun (s : State) (target stop duration curve : Nat) (owner : Owner) (t : State) : Prop where
  placed : s.placesFade target duration → t.level target = s.level target ∧
    t.lvp.fades.find target = some ⟨s.level target, stop, duration, 0, curve, owner⟩
  notPlaced : ¬s.placesFade target duration → t.level target = stop ∧ t.lvp.fades.find target = none
  overflow : t.lvp.fadeOverflow =
    (s.lvp.fadeOverflow || decide (0 < duration ∧ ¬s.placesFade target duration))
  others : ∀ u, u ≠ target → t.level u = s.level u ∧ t.lvp.fades.find u = s.lvp.fades.find u
  counts : t.cue = s.cue.recounted fun a => a.outstanding - Owner.share (s.fadeOwner target) a +
    (if s.placesFade target duration ∧ owner = .cue a.cue then 1 else 0)
  manual : t.lvp.manual = s.lvp.manual
  frame : t = { s with cue := t.cue, lvp := t.lvp, fbc := t.fbc }

section Start

variable {s : State} {target duration : Nat} (stop curve : Nat) (owner : Owner)

theorem startFade_begun_placed (placed : s.placesFade target duration) :
    s.fadeBegun target stop duration curve owner (startFade target stop duration curve owner s) := by
  have begun := startFade_placed stop curve owner placed
  rw [raiseCount_eq] at begun
  rw [begun]
  refine ⟨fun _ => ⟨rfl, ?_⟩, fun notPlaced => absurd placed notPlaced, ?_, fun u other => ⟨rfl, ?_⟩, ?_, rfl, rfl⟩
  · exact (Table.find_insert _ _ _ _).trans (if_pos rfl)
  · have fits : ¬(0 < duration ∧ ¬s.placesFade target duration) := fun overflow => overflow.2 placed
    rw [decide_eq_false fits, Bool.or_false]
    rfl
  · refine (Table.find_insert _ _ _ _).trans ?_
    rw [if_neg other, Table.find_erase, if_neg other]
  · refine (CueEngine.recounted_recounted _ _ _).trans (CueEngine.recounted_congr fun a => ?_)
    have share : Owner.share (some owner) a = if s.placesFade target duration ∧ owner = .cue a.cue then 1 else 0 :=
      if_congr (by rw [Option.some.injEq, and_iff_right placed]) rfl rfl
    exact congrArg _ share

theorem startFade_begun_notPlaced (inTable : target ≤ 788) (notPlaced : ¬s.placesFade target duration) :
    s.fadeBegun target stop duration curve owner (startFade target stop duration curve owner s) := by
  let u := setLevel target stop (s.freed target)
  have begun : startFade target stop duration curve owner s =
      u.setLvp { u.lvp with fadeOverflow := u.lvp.fadeOverflow || decide (0 < duration) } :=
    startFade_notPlaced stop curve owner notPlaced
  have level (j : Nat) : u.level j = if j = target then stop else s.level j := level_setLevel_inTable inTable stop j
  have find (j : Nat) : u.lvp.fades.find j = if j = target then none else s.lvp.fades.find j := by
    rw [setLevel_fades]
    exact Table.find_erase target j _
  rw [begun]
  refine ⟨fun placed => absurd placed notPlaced, fun _ => ⟨?_, ?_⟩, ?_, fun j other => ⟨?_, ?_⟩, ?_, ?_, ?_⟩
  · exact (level target).trans (if_pos rfl)
  · exact (find target).trans (if_pos rfl)
  · simp only [notPlaced, not_false_eq_true, and_true]
    exact congrArg (· || _) (setLevel_fadeOverflow target stop _)
  · exact (level j).trans (if_neg other)
  · exact (find j).trans (if_neg other)
  · simp only [notPlaced, false_and, if_false, Nat.add_zero]
    exact setLevel_cue target stop _
  · exact setLevel_manual target stop _
  · exact congrArg₂ State.setLvp (setLevel_frame target stop (s.freed target)) rfl

theorem startFade_begun (inTable : target ≤ 788) :
    s.fadeBegun target stop duration curve owner (startFade target stop duration curve owner s) := by
  by_cases placed : s.placesFade target duration
  · exact startFade_begun_placed stop curve owner placed
  · exact startFade_begun_notPlaced stop curve owner inTable placed

end Start

/-! ## The pending manual fades, R139 -/

/-- One manual fade starts, and completions are judged. -/
def startOneManual (s : State) (m : ManualFade) : State :=
  judge none (startFade m.target m.level m.duration m.curve .manual s)

theorem startManual_eq_foldl (s : State) :
    startManual s = s.lvp.manual.foldl startOneManual (s.setLvp { s.lvp with manual := [] }) := rfl

theorem startFade_manual (target stop duration curve : Nat) (owner : Owner) (s : State) :
    (startFade target stop duration curve owner s).lvp.manual = s.lvp.manual := by
  by_cases placed : s.placesFade target duration
  · exact (startFade_begun_placed stop curve owner placed).manual
  · rw [startFade_notPlaced stop curve owner placed]
    exact setLevel_manual target stop _

theorem startOneManual_manual (s : State) (m : ManualFade) : (startOneManual s m).lvp.manual = s.lvp.manual := by
  rw [startOneManual, judge_keeps State.lvp (fun _ _ _ => rfl) (fun _ _ _ => rfl), startFade_manual]

theorem startManual_manual (s : State) : (startManual s).lvp.manual = [] := by
  rw [startManual_eq_foldl]
  exact foldl_keeps (fun u => u.lvp.manual) _ startOneManual_manual _ _

/-- The first starts, and then those behind it: none has any part in what another leaves pending. -/
theorem startManual_cons {m : ManualFade} {later : List ManualFade} {s : State} (pending : s.lvp.manual = m :: later) :
    let one := startOneManual (s.setLvp { s.lvp with manual := [] }) m
    startManual s = startManual (one.setLvp { one.lvp with manual := later }) := by
  intro one
  have none_pending : one.lvp.manual = [] := startOneManual_manual _ m
  have same : one.setLvp { one.lvp with manual := [] } = one := by
    rw [← none_pending]
    rfl
  calc startManual s
    _ = later.foldl startOneManual one := by rw [startManual_eq_foldl, pending, List.foldl_cons]
    _ = later.foldl startOneManual (one.setLvp { one.lvp with manual := [] }) := by rw [same]
    _ = startManual (one.setLvp { one.lvp with manual := later }) := rfl

/-! ## The statement -/

/-- Settles O50: the arithmetic from `curveAt`, the start from the equations of `startFade`. -/
theorem fadeArithmetic : Obligations.FadeArithmetic := by
  unfold Obligations.FadeArithmetic
  intro curve f first last rises
  have rising : RisingCurve curve := ⟨first, last, rises⟩
  refine ⟨fun n running => ?moment, rising.fadeLevel_zero f, fun m n le running => rising.fadeLevel_toward f le running,
    fun s target a inTable runs due => ⟨?_, ?_⟩, fun s target stop duration shape owner inTable => ?start,
    fun s none => startManual_none none, fun m later s pending => ⟨startManual_cons pending, startManual_manual s⟩⟩
  case moment =>
    have short := elapsedShare_lt running
    intro q k r w level
    obtain ⟨low, high⟩ := rising.curveAt_bounds short
    have level_eq : level = between f.start f.stop w := fadeLevel_eq curve f running
    exact ⟨Nat.le_of_lt_succ short, by omega, by omega, low, high, rising.curveAt_le short,
      fun up => ⟨level_eq.trans (between_up up w), rising.fadeLevel_up running up⟩,
      fun down => ⟨level_eq.trans (between_down down w), rising.fadeLevel_down running down⟩⟩
  case start =>
    obtain ⟨placed, notPlaced, overflow, others, counts, manual, frame⟩ :=
      startFade_begun (s := s) (duration := duration) stop shape owner inTable
    exact ⟨placed, notPlaced, overflow, others, counts, manual, frame⟩
  · rw [level_advanceFade a target target s inTable, if_pos rfl, runs]
    exact if_pos due
  · rw [find_advanceFade, if_pos rfl, runs]
    exact if_pos due

end Sys2Proof.Machine
end

section
/-! PROOF. SET CURVE, FADE and SET CHANNEL (O49). -/

namespace Sys2Proof.Machine

/-! ## SET CURVE, R137 -/

/-- The check of neighbours is the one by number. -/
theorem zip_tail_all_le {l : List Nat} (rises : ∀ i, i + 1 < l.length → l.getD i 0 ≤ l.getD (i + 1) 0) :
    (l.zip l.tail).all (fun p => decide (p.1 ≤ p.2)) = true := by
  refine List.all_eq_true.mpr fun p mem => decide_eq_true ?_
  obtain ⟨i, inZip, rfl⟩ := List.getElem_of_mem mem
  have inList : i + 1 < l.length := by
    simp only [List.length_zip, List.length_tail] at inZip
    omega
  have rise := rises i inList
  rw [List.getD_eq_getElem _ _ inList, List.getD_eq_getElem _ _ (Nat.lt_of_succ_lt inList)] at rise
  simpa only [List.getElem_zip, List.getElem_tail] using rise

theorem curveOf_rising {points : List Nat} (count : points.length = 15)
    (rises : ∀ i, i < 16 → (0 :: points ++ [65535]).getD i 0 ≤ (0 :: points ++ [65535]).getD (i + 1) 0) :
    ∃ v, curveOf points = some v ∧ v.toList = 0 :: points ++ [65535] := by
  have size : (0 :: points ++ [65535]).length = 17 := by simp [count]
  have check := zip_tail_all_le fun i inList => rises i (by omega)
  refine ⟨⟨⟨0 :: points ++ [65535]⟩, size⟩, ?_, rfl⟩
  simp only [curveOf, size, check, dif_pos, if_true]

theorem setCurve_ok {curve : Nat} {points : List Nat} {v : Vector Nat 17} {s : State}
    (unlocked : s.fsc.showLock = false) (atLeast : 1 ≤ curve) (inTable : curve ≤ 3) (rising : curveOf points = some v) :
    setCurve curve points s =
      .reply .ok (v.toList.map Field.u2) (s.setLvp { s.lvp with curves := put s.lvp.curves curve v }) := by
  have passed : firstFailing [(s.fsc.showLock, Status.locked), (decide (3 < curve), .range),
      (decide (curve = 0), .wrongState)] = none := by
    rw [unlocked, decide_eq_false (by omega), decide_eq_false (by omega)]
    rfl
  simp only [setCurve, passed, rising]

/-- R137: curve 0 is fixed. -/
theorem setCurve_fixed (points : List Nat) {s : State} (unlocked : s.fsc.showLock = false) :
    setCurve 0 points s = refuse .wrongState s := by
  rw [setCurve, unlocked]
  rfl

/-! ## FADE, R138 -/

theorem placeManual_joins {m : ManualFade} {l : List ManualFade} (free : ∀ x ∈ l, x.target ≠ m.target) :
    placeManual m l = l ++ [m] := by
  induction l with
  | nil => rfl
  | cons x rest ih =>
    rw [placeManual, if_neg (free x List.mem_cons_self), ih fun y mem => free y (List.mem_cons_of_mem _ mem)]
    rfl

theorem placeManual_replaces {m x : ManualFade} {before : List ManualFade} (later : List ManualFade)
    (same : x.target = m.target) (free : ∀ y ∈ before, y.target ≠ m.target) :
    placeManual m (before ++ x :: later) = before ++ m :: later := by
  induction before with
  | nil => exact if_pos same
  | cons y rest ih =>
    rw [List.cons_append, placeManual, if_neg (free y List.mem_cons_self),
      ih fun z mem => free z (List.mem_cons_of_mem _ mem)]
    rfl

theorem mem_wallTargets_of_wallOfTarget {t w : Nat} (h : wallOfTarget t = some w) : w ≤ 3 ∧ t ∈ wallTargets w := by
  simp only [wallTargets, brightnessTarget, opacityTarget, List.mem_cons, List.not_mem_nil, or_false]
  unfold wallOfTarget at h
  split at h
  · have := Option.some.inj h
    omega
  · split at h
    · have := Option.some.inj h
      omega
    · cases h

/-- The manual fade that a request asks for. -/
def ManualFade.asked (q : FadeReq) : ManualFade := ⟨q.target, q.level, min 8191 q.duration, q.curve⟩

/-- R138: with its fields in range and its wall defined, a manual fade takes its place, or finds none. -/
theorem fade_eq {q : FadeReq} {s : State} (target : q.target ≤ 788) (level : q.level ≤ 65535) (curve : q.curve ≤ 3)
    (walls : ∀ w, w ≤ 3 → q.target ∈ wallTargets w → s.wall w ≠ none) {replaced : Bool}
    (pending : s.lvp.manual.any (fun m => decide (m.target = q.target)) = replaced) :
    fade q s =
      if replaced = false ∧ 32 ≤ s.lvp.manual.length then refuse .full s
      else .reply .ok [.u2 q.target, .u2 q.level, .u2 (min 8191 q.duration), .u1 (boolCode replaced)]
        (s.setLvp { s.lvp with manual := placeManual (.asked q) s.lvp.manual }) := by
  have inRange : (decide (788 < q.target) || decide (65535 < q.level) || decide (3 < q.curve)) = false := by
    rw [decide_eq_false (by omega), decide_eq_false (by omega), decide_eq_false (by omega)]
    rfl
  simp only [fade, checked_cons, checked_nil, inRange, pending, Bool.false_eq_true, if_false, Bool.and_eq_true,
    Bool.not_eq_true', decide_eq_true_eq]
  cases found : wallOfTarget q.target with
  | none => rfl
  | some w =>
    obtain ⟨number, mem⟩ := mem_wallTargets_of_wallOfTarget found
    exact if_neg fun free => walls w number mem ((Table.not_has_iff w s.wse.walls).mp free)

/-! ## SET CHANNEL, R144 -/

/-- The channel with the settings of a request, before its mix and output are computed. -/
def Channel.configured (ch : Channel) (mode : ChannelMode) (component : Component) (q : SetChannelReq) : Channel :=
  { ch with
    mode := mode, zone := q.zone, component := component, gain := q.gain, smoothing := q.smoothing, tracked := 0 }

/-- R141: with the tracked level at 0. -/
theorem Channel.compute_configured (ch : Channel) (mode : ChannelMode) (component : Component) (q : SetChannelReq)
    (fadeLevel master : Nat) :
    (ch.configured mode component q).compute fadeLevel master =
      let mix := (ch.configured mode component q).mixOf fadeLevel
      ⟨mode, q.zone, component, q.gain, q.smoothing, 0, mix, mix * master / 65535,
        ch.sat || decide (mode = .sum ∧ 65535 < fadeLevel)⟩ := by
  rw [Bool.decide_and]
  rfl

section Configure

variable (mode : ChannelMode) (component : Component) (q : SetChannelReq) {s : State}

theorem configureChannel_onlyOutputs (c : Nat) : s.onlyOutputs (configureChannel mode component q c s) :=
  (putChannel_onlyOutputs c _).trans (recompute_onlyOutputs c)

theorem channel_configureChannel (c : Nat) {j : Nat} (number : j < 768) :
    (configureChannel mode component q c s).channel j =
      if j = c then ((s.channel c).configured mode component q).compute (s.level c) (s.level masterTarget)
      else s.channel j := by
  rw [configureChannel, channel_recompute _ _ _ number]
  split
  · rename_i same
    rw [channel_putChannel _ _ _ _ (same ▸ number), if_pos rfl]
    rfl
  · rename_i other
    rw [channel_putChannel _ _ _ _ number, if_neg other]

/-- The first `n` channels of the run have the settings. -/
def State.configuredRun (s : State) (n : Nat) : State :=
  (List.range n).foldl (fun t i => configureChannel mode component q (q.first + i) t) s

theorem State.configuredRun_onlyOutputs (n : Nat) : s.onlyOutputs (s.configuredRun mode component q n) :=
  .foldl (fun _ i => configureChannel_onlyOutputs mode component q (q.first + i)) _ s

theorem State.configuredRun_succ (s : State) (n : Nat) :
    s.configuredRun mode component q (n + 1) =
      configureChannel mode component q (q.first + n) (s.configuredRun mode component q n) := by
  rw [configuredRun, List.range_succ, List.foldl_append]
  rfl

/-- Each channel of the run is configured at its own turn, and no other turn reaches it. -/
theorem State.channel_configuredRun (n : Nat) {c : Nat} (number : c < 768) :
    (s.configuredRun mode component q n).channel c =
      if q.first ≤ c ∧ c < q.first + n then
        ((s.channel c).configured mode component q).compute (s.level c) (s.level masterTarget)
      else s.channel c := by
  induction n with
  | zero => exact (if_neg (by omega)).symm
  | succ n ih =>
    have before := configuredRun_onlyOutputs mode component q (s := s) n
    rw [configuredRun_succ, channel_configureChannel mode component q _ number, before.level, before.level]
    by_cases turn : c = q.first + n
    · subst turn
      rw [if_pos rfl, ih, if_neg (by omega), if_pos (by omega)]
    · rw [if_neg turn, ih]
      exact if_congr (by omega) rfl rfl

theorem setChannel_ok {mode component q} (unlocked : s.fsc.showLock = false) (inRange : channelOutOfRange q = false)
    (modeCode : ChannelMode.ofCode q.mode = some mode) (componentCode : Component.ofCode q.component = some component) :
    setChannel q s = .reply .ok
      [.u2 q.first, .u1 q.count, .u1 q.mode, .u1 q.zone, .u1 q.component, .u2 q.gain, .u2 q.smoothing]
      (s.configuredRun mode component q q.count) := by
  have passed : firstFailing [(s.fsc.showLock, Status.locked), (channelOutOfRange q, .range)] = none := by
    rw [unlocked, inRange]
    rfl
  simp only [setChannel, passed, modeCode, componentCode, State.configuredRun]

end Configure

/-! ## What writing outputs leaves -/

/-- The request at the head of the queue is no part of what a reply leaves. -/
theorem State.onlyOutputs.answered_atHead {s t : State} {cmd : Instr} {rest : List QueuedRequest}
    (h : (s.atHead cmd rest).onlyOutputs t) (tag kind : Byte) (st : Status) (fields : List Field) :
    t.answered tag kind st fields rest =
      ({ s with lvp := t.lvp, fbc := t.fbc } : State).answered tag kind st fields rest := by
  obtain ⟨⟨_, _, _, rfl⟩, _⟩ := h
  rfl

theorem State.onlyOutputs.channels_only {s t : State} (h : s.onlyOutputs t) :
    t.lvp = { s.lvp with channels := t.lvp.channels } := by
  obtain ⟨⟨_, _, _, rfl⟩, _⟩ := h
  rfl

theorem State.onlyOutputs.lkd {s t : State} (h : s.onlyOutputs t) : t.lkd = s.lkd := by
  obtain ⟨⟨_, _, _, rfl⟩, _⟩ := h
  rfl

/-! ## The statement -/

/-- Settles O49: what each handler answers, with the Link Dispatcher's reply around it. -/
theorem levelRequests : Obligations.LevelRequests := by
  unfold Obligations.LevelRequests
  intro tag rest s
  refine ⟨?curve, fun points h unlocked => ?fixed, ?fade, ?channel⟩
  case curve =>
    intro curve points h unlocked atLeast inTable count all rises
    obtain ⟨v, rising, points_eq⟩ := curveOf_rising count rises
    have answer := setCurve_ok (s := s.atHead (.setCurve tag curve points) rest) unlocked atLeast inTable rising
    rw [points_eq] at answer
    exact ⟨v, points_eq, congrArg _ (serve_ok _ _ _ _ _ _ _ _ h answer rfl)⟩
  case fixed =>
    exact congrArg _ (serve_refused _ _ _ _ _ _ _ h (setCurve_fixed (s := s.atHead _ rest) points unlocked))
  case fade =>
    intro q h target level curve walls m done
    have answer {replaced : Bool} := fade_eq (s := s.atHead (.fade tag q) rest) target level curve walls
      (replaced := replaced)
    refine ⟨fun free => ?_, fun before x later pending same free => ?_⟩
    · have answer := answer (replaced := false) (List.any_eq_false.mpr fun x mem => by simpa using free x mem)
      simp only [true_and, State.atHead_lvp, placeManual_joins (m := .asked q) free] at answer
      rw [← ite_not]
      simp only [Nat.not_lt]
      exact (congrArg _ (serve_refusedIf h answer fun answer => serve_ok _ _ _ _ _ _ _ _ h answer rfl)).trans
        (apply_ite Host.Outcome.next _ _ _)
    · have answer := answer (replaced := true)
        (List.any_eq_true.mpr ⟨x, by simp [pending], decide_eq_true same⟩)
      simp only [Bool.true_eq_false, false_and, if_false, State.atHead_lvp, pending,
        placeManual_replaces (m := .asked q) later same free] at answer
      exact congrArg _ (serve_ok _ _ _ _ _ _ _ _ h answer rfl)
  case channel =>
    intro q mode component h unlocked one most inTable zone gain smooth smoothest modeCode componentCode
    have inRange : channelOutOfRange q = false := by
      simp only [channelOutOfRange, Bool.or_eq_false_iff, decide_eq_false_iff_not]
      omega
    have answer := setChannel_ok (s := s.atHead (.setChannel tag q) rest) unlocked inRange modeCode componentCode
    have only := State.configuredRun_onlyOutputs mode component q (s := s.atHead (.setChannel tag q) rest) q.count
    have channel {c : Nat} (number : c < 768) :=
      State.channel_configuredRun mode component q (s := s.atHead (.setChannel tag q) rest) q.count number
    generalize State.configuredRun mode component q (s.atHead (.setChannel tag q) rest) q.count = t
      at answer only channel
    refine ⟨{ s with lvp := t.lvp, fbc := t.fbc }, ?_, fun c number => ?_, ?_, only.fixtures⟩
    · have ready : t.lkd.ready.length = s.lkd.ready.length := by rw [only.lkd, State.atHead_ready]
      exact congrArg _ ((serve_ok _ _ _ _ _ _ _ _ h answer ready).trans (only.answered_atHead _ _ _ _))
    · refine (channel number).trans (if_congr Iff.rfl ?_ rfl)
      rw [Channel.compute_configured]
      cases mode <;> rfl
    · exact congrArg (fun l => ({ s with lvp := l, fbc := t.fbc } : State)) only.channels_only

end Sys2Proof.Machine
end

section
/-! SUPPORT. The ports of the Fixture Bus Controller: what writing a port leaves, what entering a state raises (R149), the
state that the counts give (R154), and the queue and the dirty set (R161, R162). -/

namespace Sys2Proof.Machine

/-! ## Writing a port -/

section Writes

variable (p o : Port) (x y : BusPort) (s : State)

@[simp] theorem port_setPort_same : (setPort p x s).port p = x := by rw [port_setPort, if_pos rfl]

@[simp] theorem setPort_setPort : setPort p y (setPort p x s) = setPort p y s := by cases p <;> rfl

@[simp] theorem setPort_port : setPort p (s.port p) s = s := by cases p <;> rfl

@[simp] theorem setPort_lkd : (setPort p x s).lkd = s.lkd := rfl

@[simp] theorem setLkd_port (l : Lkd) : (s.setLkd l).port o = s.port o := rfl

@[simp] theorem setPort_setLkd (l : Lkd) : setPort p x (s.setLkd l) = (setPort p x s).setLkd l := rfl

variable {p o}

theorem port_setPort_other (other : o ≠ p) : (setPort p x s).port o = s.port o := by rw [port_setPort, if_neg other]

end Writes

/-! ## Entering a port state, R149 and R154 -/

/-- R149: what the Link Dispatcher holds after a port of record `x` has entered a state: PORT_STATE is raised where the
state is new. -/
def State.portEntered (s : State) (p : Port) (x : BusPort) (new : PortState) (cause : PortCause) : Lkd :=
  if x.state = new then s.lkd
  else s.lkd.raise ⟨.portState, s.rtu.counter,
    [.u2 (portCode p), .u2 x.state.code, .u2 new.code, .u2 cause.code, .u2 x.txe, .u2 x.rxe]⟩

theorem enterPort_setPort (p : Port) (x : BusPort) (new : PortState) (cause : PortCause) (s : State) :
    enterPort p new cause (setPort p x s) =
      (setPort p { x with state := new } s).setLkd (s.portEntered p x new cause) := by
  simp only [enterPort, State.portEntered, port_setPort_same, setPort_setPort]
  split <;> rfl

/-- R154: the record of a port once its state follows its counts. -/
def BusPort.settle (x : BusPort) : BusPort :=
  if stateOfCounts x.txe x.rxe = .detached then
    { x.unqueue with quiet := 0, drive := .released, state := .detached }
  else { x with state := stateOfCounts x.txe x.rxe }

theorem settlePort_setPort (p : Port) (x : BusPort) (s : State) :
    settlePort p (setPort p x s) =
      (setPort p x.settle s).setLkd (s.portEntered p x (stateOfCounts x.txe x.rxe) .errors) := by
  simp only [settlePort, BusPort.settle, port_setPort_same, setPort_setPort]
  split
  · next detached => rw [enterPort_setPort, detached]; rfl
  · rw [enterPort_setPort]

/-- R154: up to 191 send errors a port stays on the line. -/
theorem stateOfCounts_onLine {txe : Nat} (rxe : Nat) (few : txe ≤ 191) :
    stateOfCounts txe rxe = if txe < 96 ∧ rxe < 96 then .normal else .passive := by
  rw [stateOfCounts, if_neg (by omega)]
  by_cases h : txe < 96 ∧ rxe < 96
  · rw [if_pos h, if_neg (by omega)]
  · rw [if_neg h, if_pos (by omega)]

theorem stateOfCounts_detached {txe : Nat} (rxe : Nat) (many : 191 < txe) : stateOfCounts txe rxe = .detached :=
  if_pos many

theorem stateOfCounts_ne_detached {txe : Nat} (rxe : Nat) (few : txe ≤ 191) : stateOfCounts txe rxe ≠ .detached := by
  rw [stateOfCounts_onLine rxe few]
  split <;> nofun

/-- Ids put into a set one after the other. -/
theorem mem_foldl_insertId {β : Type} (g : β → Nat) (l : List β) (id : Nat) (set : List Nat) :
    id ∈ l.foldl (fun d x => insertId (g x) d) set ↔ id ∈ set ∨ ∃ x ∈ l, g x = id := by
  induction l generalizing set with
  | nil => simp
  | cons x rest ih =>
    rw [List.foldl_cons, ih, mem_insertId, List.exists_mem_cons_iff, or_comm (a := id = g x), or_assoc,
      eq_comm (a := id)]

namespace BusPort

theorem settle_onLine {x : BusPort} (few : x.txe ≤ 191) : x.settle = { x with state := stateOfCounts x.txe x.rxe } :=
  if_neg (stateOfCounts_ne_detached _ few)

theorem settle_detached {x : BusPort} (many : 191 < x.txe) :
    x.settle = { x.unqueue with quiet := 0, drive := .released, state := .detached } :=
  if_pos (stateOfCounts_detached _ many)

/-! ## The queue and the dirty set, R161 -/

/-- Filling puts dirty fixtures behind what is queued, and writes nothing else. -/
theorem fill_eq (b : BusPort) :
    ∃ (ids d : List Nat) (l : Nat), b.fill = { b with
      queue := b.queue ++ ids.map (fun id => ⟨id, none, false⟩), dirty := d, lastAdmitted := l } ∧
      (∀ j ∈ d, j ∈ b.dirty) ∧ (∀ j ∈ ids, j ∈ b.dirty) ∧ (∀ j ∈ b.dirty, j ∈ ids ∨ j ∈ d) := by
  unfold BusPort.fill
  split
  · obtain ⟨ids, d, l, eq, fromDirty, admitted, all, -⟩ := b.admit_eq 32
    exact ⟨ids, d, l, eq, fromDirty, admitted, all⟩
  · exact ⟨[], b.dirty, b.lastAdmitted, by simp, fun _ => id, nofun, fun _ => .inr⟩

/-- What does not look at the queue, the dirty set or the last admitted id is unchanged by filling. -/
theorem fill_keeps {α : Type} (g : BusPort → α)
    (h : ∀ b q d l, g { b with queue := q, dirty := d, lastAdmitted := l } = g b) (b : BusPort) : g b.fill = g b := by
  obtain ⟨_, _, _, eq, -⟩ := b.fill_eq
  rw [eq]
  exact h _ _ _ _

/-- What does not look at the queue or the dirty set is unchanged by a mark. -/
theorem mark_keepsOthers {α : Type} (g : BusPort → α) (h : ∀ b q d, g { b with queue := q, dirty := d } = g b)
    (b : BusPort) (id : Nat) : g (b.mark id) = g b := by
  rw [b.mark_eq id]
  exact h _ _ _

/-- A fixture that is dirty is queued or dirty after filling. -/
theorem fill_marks {b : BusPort} {id : Nat} (h : id ∈ b.dirty) : b.fill.isQueued id = true ∨ b.fill.isDirty id = true := by
  obtain ⟨ids, d, _, eq, -, -, all⟩ := b.fill_eq
  rw [eq]
  rcases all id h with queued | dirty
  · left
    simpa [isQueued] using .inr queued
  · right
    simpa [isDirty] using dirty

/-- A fixture that is neither queued nor dirty is neither after filling. -/
theorem fill_unmarked {b : BusPort} {id : Nat} (queued : b.isQueued id = false) (dirty : id ∉ b.dirty) :
    b.fill.isQueued id = false ∧ b.fill.isDirty id = false := by
  obtain ⟨ids, d, _, eq, fromDirty, admitted, -⟩ := b.fill_eq
  have absent : id ∉ ids := mt (admitted id) dirty
  rw [eq]
  constructor
  · rw [isQueued] at queued ⊢
    rw [List.any_append, queued]
    simpa using fun j mem (same : j = id) => absent (same ▸ mem)
  · simpa [isDirty] using mt (fromDirty id) dirty

/-- R147, R154: every entry but the orphans leaves the queue into the dirty set. -/
theorem mem_unqueue (b : BusPort) (id : Nat) :
    id ∈ b.unqueue.dirty ↔ id ∈ b.dirty ∨ ∃ x ∈ b.queue, x.fixture = id ∧ x.orphan = false := by
  rw [unqueue, mem_foldl_insertId QueueEntry.fixture]
  simp only [List.mem_filter, Bool.not_eq_true', and_assoc, and_comm (a := _ = false)]

/-! ## The SENDING entry, R162 -/

theorem sending_append {b c : BusPort} {ids : List Nat}
    (queue : c.queue = b.queue ++ ids.map (fun id => ⟨id, none, false⟩)) : c.sending = b.sending := by
  have waiting : (ids.map (fun id => (⟨id, none, false⟩ : QueueEntry))).find? (fun e => e.snapshot.isSome) = none := by
    simp [List.find?_eq_none]
  rw [sending, sending, queue, List.find?_append, waiting, Option.or_none]

@[simp] theorem sending_fill (b : BusPort) : b.fill.sending = b.sending := by
  obtain ⟨ids, _, _, eq, -⟩ := b.fill_eq
  exact sending_append (congrArg BusPort.queue eq)

@[simp] theorem sending_mark (b : BusPort) (id : Nat) : (b.mark id).sending = b.sending := by
  unfold BusPort.mark
  split
  · rfl
  · split
    · exact sending_append (ids := [id]) rfl
    · rfl

@[simp] theorem sending_dropSending (b : BusPort) : b.dropSending.sending = none := by
  simp [sending, dropSending]

@[simp] theorem sending_endAttempt (b : BusPort) : b.endAttempt.sending = none := by
  unfold BusPort.endAttempt
  split
  · next idle => exact idle
  · split
    · rw [sending_fill, sending_dropSending]
    · simp [sending]

theorem endAttempt_idle {b : BusPort} (idle : b.sending = none) : b.endAttempt = b := by
  simp only [endAttempt, idle]

/-- R162: an entry that is no orphan returns to WAITING in its place. -/
theorem endAttempt_retry {b : BusPort} {e : QueueEntry} (sending : b.sending = some e) (defined : e.orphan = false) :
    b.endAttempt = { b with queue := b.queue.map (fun x => { x with snapshot := none }) } := by
  simp only [endAttempt, sending, defined, Bool.false_eq_true, if_false]

/-- What does not look at the queue, the dirty set or the last admitted id is unchanged by the end of an attempt. -/
theorem endAttempt_keeps {α : Type} (g : BusPort → α)
    (h : ∀ b q d l, g { b with queue := q, dirty := d, lastAdmitted := l } = g b) (b : BusPort) :
    g b.endAttempt = g b := by
  unfold BusPort.endAttempt
  split
  · rfl
  · split
    · exact (fill_keeps g h _).trans (h b _ b.dirty b.lastAdmitted)
    · exact h b _ b.dirty b.lastAdmitted

end BusPort

end Sys2Proof.Machine
end

section
/-! SUPPORT. The commands that leave the Fixture Bus Controller alone: all but those of the buses themselves, those that
write levels (R143), the frame boundaries and the full resets. -/

namespace Sys2Proof.Machine

/-- The commands that can write a port or a fixture. -/
def Instr.reachesBus : Instr → Bool
  | .powerOn _ | .resetPin _ | .fullReset _
  | .framePulse _ | .lateLimit _ | .frameBoundary _ | .acquisitionAbandoned _ | .holdoverExpired _ | .waitEntryDue _
  | .followExpiry _ | .fadeEnd _ _ | .feedLost _ | .keepAliveExpiry _ _ | .silenceLimit _ _
  | .zoneComplete _ | .defineWall _ _ | .setChannel _ _
  | .setBus _ _ | .setFilter _ _ | .defineFixture _ _ | .deleteFixture _ _
  | .portJoined _ | .portRecovered _ | .quietPeriod _ | .sendStart _ _ | .lostArbitration _ | .sendSuccess _
  | .validReception _ _ | .busError _ _ => true
  | _ => false

/-- The next state, if there is one, has the buses and the fixtures of `s`. -/
def State.busKeptBy (s : State) (r : Result) : Prop := ∀ t, r = .next t → t.fbc = s.fbc

namespace State.busKeptBy

variable {s t : State}

protected theorem next (h : t.fbc = s.fbc) : s.busKeptBy (.next t) := by
  rintro _ ⟨⟩
  exact h

protected theorem same : s.busKeptBy (.next s) := .next rfl

protected theorem fault {r : Fault} : s.busKeptBy (.fault r) := by
  rintro _ ⟨⟩

end State.busKeptBy

/-! ## Requests -/

/-- A request leaves of the buses what its block does, or leaves them as they were. -/
theorem serve_fbc {P : Fbc → Prop} {cmd : Instr} {tag kind : Byte} {handle : State → Answer} {s : State}
    (own : P s.fbc) (hh : ∀ u, u.fbc = s.fbc → P (handle u).state.fbc) : P (serve cmd tag kind handle s).fbc := by
  by_cases taken : ∃ rest, s.takes cmd rest
  · obtain ⟨rest, taken⟩ := taken
    have handled := hh (s.atHead cmd rest) rfl
    rw [serve_taken cmd tag kind handle rest s taken]
    cases answer : handle (s.atHead cmd rest) with
    | reply st fields t => rw [answer] at handled; exact handled
    | withhold hold t => rw [answer] at handled; exact handled
  · rw [serve_waits cmd tag kind handle s (not_exists.mp taken),
      joinQueue_keeps State.fbc (fun _ _ => rfl)]
    exact own

/-- A block answers and leaves the buses alone. -/
def LeavesBus (handle : State → Answer) : Prop := ∀ u, (handle u).state.fbc = u.fbc

theorem LeavesBus.served {handle : State → Answer} (h : LeavesBus handle) {cmd : Instr} {tag kind : Byte} {s : State} :
    s.busKeptBy (.next (serve cmd tag kind handle s)) :=
  .next (serve_fbc (P := (· = s.fbc)) rfl fun u same => (h u).trans same)

/-- A block that only reads. -/
theorem LeavesBus.ofReads {handle : State → Answer} {ok : State → Prop} (h : ∀ u, (handle u).readsIf u (ok u)) :
    LeavesBus handle := fun u => congrArg State.fbc (h u).state

/-- Checks made in order before a block carries a request out. -/
theorem checked_fbc {checks : List (Bool × Status)} {u : State} {ok : Answer} (h : ok.state.fbc = u.fbc) :
    (checked checks u ok).state.fbc = u.fbc := by
  unfold checked
  split
  · rfl
  · exact h

theorem setReference_leavesBus (q : SetReferenceReq) : LeavesBus (setReference q) := fun u => by
  unfold setReference
  split
  · rfl
  · rfl
  · dsimp only [Answer.state]
    split
    · exact reenter_keeps State.fbc (fun _ _ => rfl) (fun _ _ _ => rfl) _
    · rfl

theorem reset_leavesBus (scope : Nat) : LeavesBus (reset scope) := fun u => by
  unfold Machine.reset
  split
  · rfl
  · split <;> rfl

theorem setCamera_leavesBus (q : SetCameraReq) : LeavesBus (setCamera q) := fun u => by
  unfold setCamera
  split <;> rfl

theorem defineRegion_leavesBus (q : DefineRegionReq) : LeavesBus (defineRegion q) := fun u => by
  unfold defineRegion
  split
  · rfl
  · rfl
  · exact checked_fbc rfl

theorem deleteRegion_leavesBus (id : Nat) : LeavesBus (deleteRegion id) := fun u => by
  unfold deleteRegion
  split
  · rfl
  · rfl
  · split
    · rfl
    · split <;> rfl

theorem acceptEntry_fbc (e : PostEntry) (s : State) : (acceptEntry e s).fbc = s.fbc :=
  postedUp_keeps State.fbc (fun _ _ => rfl) e.region s

theorem placeEntry_leavesBus (failing : State → Option Status) (e : PostEntry) :
    LeavesBus fun u => placeEntry (failing u) e u := fun u => by
  unfold placeEntry
  dsimp only
  split
  · rfl
  · split
    · exact acceptEntry_fbc e u
    · rfl

theorem readContent_leavesBus (q : ReadContentReq) : LeavesBus (readContent q) := fun u => by
  unfold readContent
  split
  · rfl
  · rfl
  · split
    · rfl
    · split <;> rfl

theorem setLiveInput_leavesBus (region : Option Nat) : LeavesBus (setLiveInput region) := fun u => by
  unfold setLiveInput
  dsimp only
  split
  · rfl
  · rfl
  · split
    · rfl
    · split
      · rfl
      · exact rebind_keeps State.fbc (fun _ _ => rfl) (fun _ _ _ => rfl) _ u

theorem deleteWall_leavesBus (w : Nat) : LeavesBus (deleteWall w) := fun u => by
  unfold deleteWall
  split
  · rfl
  · rfl
  · exact removeWall_keeps State.fbc (fun _ _ => rfl) (fun _ _ => rfl) (fun _ _ _ => rfl) (fun _ _ => rfl)
      (fun _ _ _ => rfl) (fun _ _ _ => rfl) (fun _ _ _ => rfl) w _ u

theorem setLayer_leavesBus (q : SetLayerReq) : LeavesBus (setLayer q) := fun u =>
  checked_fbc (changeLayer_keeps State.fbc (fun _ _ => rfl) (fun _ _ _ => rfl) _ _ _ u)

theorem setWallMode_leavesBus (q : SetWallModeReq) : LeavesBus (setWallMode q) := fun u => by
  unfold setWallMode
  split <;> rfl

theorem setTile_leavesBus (q : SetTileReq) : LeavesBus (setTile q) := fun u => by
  unfold setTile
  split
  · rfl
  · rfl
  · rfl
  · exact placeTile_keeps State.fbc (fun _ _ _ => rfl) (fun _ _ => rfl) (fun _ _ _ => rfl) _ _ u

theorem removeTile_leavesBus (id : Nat) : LeavesBus (removeTile id) := fun u => by
  unfold removeTile
  split
  · rfl
  · rfl
  · exact takeTile_keeps State.fbc (fun _ _ _ => rfl) (fun _ _ => rfl) (fun _ _ _ => rfl) id u

theorem setCorrection_leavesBus (q : SetCorrectionReq) : LeavesBus (setCorrection q) := fun u => by
  unfold setCorrection
  split <;> rfl

theorem defineZone_leavesBus (q : DefineZoneReq) : LeavesBus (defineZone q) := fun u => by
  unfold defineZone
  split
  · rfl
  · rfl
  · split
    · rfl
    · split <;> rfl

theorem storeCue_leavesBus (q : StoreCueReq) : LeavesBus (storeCue q) := fun u => by
  unfold storeCue
  split
  · rfl
  · exact checked_fbc (replaceCue_keeps State.fbc (fun _ _ => rfl) (fun _ _ => rfl) _ _ u)

theorem deleteCue_leavesBus (n : Nat) : LeavesBus (deleteCue n) := fun u => by
  unfold deleteCue
  split
  · rfl
  · rfl
  · exact removeCue_keeps State.fbc (fun _ _ => rfl) (fun _ _ => rfl) n _ u

theorem go_leavesBus : LeavesBus go := fun u => by
  unfold go
  split <;> rfl

theorem cancelGo_leavesBus : LeavesBus cancelGo := fun u => by
  unfold cancelGo
  split <;> rfl

theorem setCurve_leavesBus (curve : Nat) (points : List Nat) : LeavesBus (setCurve curve points) := fun u => by
  unfold setCurve
  split <;> rfl

theorem setDimmer_leavesBus (q : SetDimmerReq) : LeavesBus (setDimmer q) := fun u => by
  unfold setDimmer
  dsimp only
  split <;> rfl

/-! ## Events -/

section Events

variable (s : State)

theorem execRankSized_bus (o : RankOutcome) : s.busKeptBy (execRankSized o s) := by
  have fault (i : Nat) (r : Rank) (u : State) : (rankFault i r u).fbc = u.fbc := by
    unfold rankFault
    split <;> rfl
  unfold execRankSized
  split
  · dsimp only
    split
    · exact .next (fault _ _ _)
    · exact .next (fault _ _ _)
  · exact .same

theorem receiveChar_fbc (c : RxChar) : (receiveChar s c).fbc = s.fbc := by
  have hunt (u : State) : (huntChar c u).fbc = u.fbc := huntChar_keeps State.fbc (fun _ _ => rfl) c u
  have error : (linkError s).fbc = s.fbc := linkError_keeps State.fbc (fun _ _ => rfl) s
  unfold receiveChar
  split
  · exact hunt s
  · split
    · exact (hunt _).trans error
    · split
      · exact error
      · exact frameByte_keeps State.fbc (fun _ _ => rfl) _ s

theorem execControlLinkFrame_bus (time : Nat) (lines : BitVec 8) (chars : List LineChar) :
    s.busKeptBy (execControlLinkFrame time lines chars s) :=
  .next (foldl_keeps State.fbc _ receiveChar_fbc _ _)

theorem execUnknownKind_bus (tag kind : Byte) : s.busKeptBy (execUnknownKind tag kind s) := by
  unfold execUnknownKind
  split
  · exact .same
  · exact LeavesBus.served fun u => rfl

theorem execTransmitFrame_bus : s.busKeptBy (execTransmitFrame s) := by
  unfold execTransmitFrame
  split <;> exact .next rfl

theorem execLinkReset_bus : s.busKeptBy (execLinkReset s) := by
  unfold execLinkReset
  split <;> exact .next rfl

theorem composeRun_fbc (w n : Nat) (x : Wall) (f : FrameParams) : (composeRun w n x f s).fbc = s.fbc :=
  composeRun_keeps State.fbc (fun _ _ _ => rfl) w n x f s

theorem execLatchInstant_bus (w k : Nat) : s.busKeptBy (execLatchInstant w k s) := by
  have composed (x : Wall) (f : FrameParams) (tick : Nat) :
      (composeRun w x.area x f (reach w k (moveTick tick s))).fbc = s.fbc := composeRun_fbc _ _ _ _ _
  unfold execLatchInstant
  split
  · exact .same
  · split
    · exact .same
    · dsimp only
      split
      · split
        · split
          · exact .next (composed _ _ _)
          · exact .next ((sendSubFrame_keeps State.fbc (fun _ _ _ => rfl) _ _ _ _).trans (composed _ _ _))
        · exact .fault
      · exact .same

theorem execChainEcho_bus (chain word : Nat) : s.busKeptBy (execChainEcho chain word s) := by
  unfold execChainEcho
  split <;> exact .next rfl

theorem headLeaves_fbc (id : Nat) : (headLeaves id s).fbc = s.fbc := postedDown_keeps State.fbc (fun _ _ => rfl) id _

theorem execBurstGrant_bus (asks : Asks) : s.busKeptBy (execBurstGrant asks s) := by
  unfold execBurstGrant
  split
  · split
    · exact .same
    · split
      · exact .next (headLeaves_fbc s _)
      · split
        · exact .next (headLeaves_fbc _ _)
        · split
          · refine .next ?_
            unfold writeBurst
            dsimp only
            split
            · exact headLeaves_fbc _ _
            · rfl
          · exact .fault
  · exact .same

theorem retryEntry_fbc (tag kind : Byte) (failing : Option Status) (e : PostEntry) :
    (retryEntry tag kind failing e s).fbc = s.fbc := by
  unfold retryEntry
  split
  · rfl
  · exact acceptEntry_fbc e s

theorem execWaitingRequestAccept_bus : s.busKeptBy (execWaitingRequestAccept s) := by
  unfold execWaitingRequestAccept
  split
  · split
    · exact .next (retryEntry_fbc s _ _ _ _)
    · exact .next (retryEntry_fbc s _ _ _ _)
    · exact .same
  · exact .same

theorem execRegionRemoval_bus : s.busKeptBy (execRegionRemoval s) := by
  unfold execRegionRemoval
  split
  · split
    · split <;> exact .next rfl
    · exact .same
  · exact .same

theorem execReadProceeds_bus : s.busKeptBy (execReadProceeds s) := by
  unfold execReadProceeds
  split
  · split
    · split <;> exact .next rfl
    · exact .same
  · exact .same

theorem execContentReadGrant_bus (asks : Asks) : s.busKeptBy (execContentReadGrant asks s) := by
  unfold execContentReadGrant
  split
  · split
    · split
      · exact .same
      · split
        · exact .next rfl
        · exact .fault
    · exact .same
  · exact .same

theorem execInputFrameStart_bus : s.busKeptBy (execInputFrameStart s) := by
  have ended : (endInput s).fbc = s.fbc := endInput_keeps State.fbc (fun _ _ => rfl) s
  unfold execInputFrameStart
  dsimp only
  split
  · exact .same
  · split
    · exact .next ((enterLive_keeps State.fbc (fun _ _ => rfl) (fun _ _ _ => rfl) _ _ _ _).trans ended)
    · exact .next ended

theorem execLineStrobe_bus : s.busKeptBy (execLineStrobe s) := by
  unfold execLineStrobe
  split
  · exact .same
  · split <;> exact .next rfl
  · exact .next rfl

theorem execInputPixel_bus (r g b : BitVec 10) : s.busKeptBy (execInputPixel r g b s) := by
  unfold execInputPixel
  split <;> exact .next rfl

theorem liveCapture_bus (n : Nat) : s.busKeptBy (liveCapture n s) := by
  have completed (u : State) : (completeIfWritten u).fbc = u.fbc := by
    unfold completeIfWritten
    split
    · exact completeInput_keeps State.fbc (fun _ _ => rfl) (fun _ _ _ => rfl) u
    · rfl
  unfold liveCapture
  split
  · exact .same
  · split
    · exact .next (completed _)
    · exact .fault

theorem execInputFrameComplete_bus : s.busKeptBy (execInputFrameComplete s) := by
  unfold execInputFrameComplete
  dsimp only
  split
  · exact liveCapture_bus s _
  · exact .same

theorem scanFetch_bus (w n : Nat) : s.busKeptBy (scanFetch w n s) := by
  unfold scanFetch
  split
  · exact .same
  · split
    · exact .same
    · split
      · exact .next (composeRun_fbc s _ _ _ _)
      · exact .fault

theorem execDramAccessGrant_bus (asks : Asks) : s.busKeptBy (execDramAccessGrant asks s) := by
  unfold execDramAccessGrant
  split
  · exact scanFetch_bus s _ _
  · exact liveCapture_bus s _
  · exact .same

theorem execDimmerPeriodStart_bus (o j : Nat) : s.busKeptBy (execDimmerPeriodStart o j s) := by
  unfold execDimmerPeriodStart
  dsimp only
  split
  · exact .same
  · split <;> exact .next rfl

theorem execDimmerPulseEnd_bus (o : Nat) : s.busKeptBy (execDimmerPulseEnd o s) := by
  unfold execDimmerPulseEnd
  dsimp only
  split <;> exact .next rfl

end Events

/-! ## All of them -/

theorem exec_bus {i : Instr} (apart : Instr.reachesBus i = false) (s : State) : s.busKeptBy (exec i s) := by
  cases i with
  | powerOn | resetPin | fullReset | framePulse | lateLimit | frameBoundary | acquisitionAbandoned | holdoverExpired
  | waitEntryDue | followExpiry | fadeEnd | feedLost | keepAliveExpiry | silenceLimit | zoneComplete | defineWall
  | setChannel | setBus | setFilter | defineFixture | deleteFixture | portJoined | portRecovered | quietPeriod
  | sendStart | lostArbitration | sendSuccess | validReception | busError => cases apart
  | rankSized o => exact execRankSized_bus s o
  | controlLinkFrame time lines chars => exact execControlLinkFrame_bus s time lines chars
  | unknownKind tag kind => exact execUnknownKind_bus s tag kind
  | transmitFrame => exact execTransmitFrame_bus s
  | linkReset => exact execLinkReset_bus s
  | linePulse => exact .next rfl
  | latchInstant w k => exact execLatchInstant_bus s w k
  | chainEcho chain word => exact execChainEcho_bus s chain word
  | dramAccessGrant asks => exact execDramAccessGrant_bus s asks
  | burstGrant asks => exact execBurstGrant_bus s asks
  | waitingRequestAccept => exact execWaitingRequestAccept_bus s
  | regionRemoval => exact execRegionRemoval_bus s
  | readProceeds => exact execReadProceeds_bus s
  | contentReadGrant asks => exact execContentReadGrant_bus s asks
  | inputFrameStart => exact execInputFrameStart_bus s
  | lineStrobe => exact execLineStrobe_bus s
  | inputFrameComplete => exact execInputFrameComplete_bus s
  | inputPixel r g b => exact execInputPixel_bus s r g b
  | dimmerPeriodStart o j => exact execDimmerPeriodStart_bus s o j
  | dimmerPulseEnd o => exact execDimmerPulseEnd_bus s o
  | identify | readStatus | readTiming | readMemory | readPosting | readLive | readCueState | setShowLock =>
    exact LeavesBus.served fun u => rfl
  | readPhase q =>
    intro t ht
    refine (LeavesBus.served (s := senseLines q.lines s) (fun u => rfl) t ht).trans ?_
    cases q.lines <;> rfl
  | readRegion _ id => exact (LeavesBus.ofReads fun u => readRegion_reads u id).served
  | readWall _ w => exact (LeavesBus.ofReads fun u => readWall_reads u w).served
  | readZone _ z => exact (LeavesBus.ofReads fun u => readZone_reads u z).served
  | readCue _ n search => exact (LeavesBus.ofReads fun u => readCue_answers u n search).served
  | readLevels _ q => exact (LeavesBus.ofReads fun u => readLevels_reads u q).served
  | readBus _ port => exact (LeavesBus.ofReads fun u => readBus_reads u port).served
  | readFixture _ id search => exact (LeavesBus.ofReads fun u => readFixture_answers u id search).served
  | readDimmer _ output => exact (LeavesBus.ofReads fun u => readDimmer_reads u output).served
  | clearFlags | setNoticeMask | setIdlePhase | setSlew | tally | standby | goCue | hold | release | stepFrames
  | fade => exact LeavesBus.served fun u => checked_fbc rfl
  | reset _ scope => exact (reset_leavesBus scope).served
  | setReference _ q => exact (setReference_leavesBus q).served
  | setCamera _ q => exact (setCamera_leavesBus q).served
  | defineRegion _ q => exact (defineRegion_leavesBus q).served
  | deleteRegion _ id => exact (deleteRegion_leavesBus id).served
  | writeContent | fillRegion => exact (placeEntry_leavesBus _ _).served
  | readContent _ q => exact (readContent_leavesBus q).served
  | setLiveInput _ region => exact (setLiveInput_leavesBus region).served
  | deleteWall _ w => exact (deleteWall_leavesBus w).served
  | setLayer _ q => exact (setLayer_leavesBus q).served
  | setWallMode _ q => exact (setWallMode_leavesBus q).served
  | setTile _ q => exact (setTile_leavesBus q).served
  | removeTile _ id => exact (removeTile_leavesBus id).served
  | setCorrection _ q => exact (setCorrection_leavesBus q).served
  | defineZone _ q => exact (defineZone_leavesBus q).served
  | storeCue _ q => exact (storeCue_leavesBus q).served
  | deleteCue _ n => exact (deleteCue_leavesBus n).served
  | go => exact go_leavesBus.served
  | cancelGo => exact cancelGo_leavesBus.served
  | setCurve _ curve points => exact (setCurve_leavesBus curve points).served
  | setDimmer _ q => exact (setDimmer_leavesBus q).served

end Sys2Proof.Machine
end

section
/-! SUPPORT. Settled ports: each operation on a port, a fixture or a level keeps the ports settled, or settles the port it
writes. -/

namespace Sys2Proof.Machine

/-! ## One port, R154 and R161 -/

namespace BusPort.settled

variable {b c : BusPort}

/-- The state and the counts decide, beside the length of the queue. -/
theorem of_same (h : b.settled) (same : (c.state, c.txe, c.rxe) = (b.state, b.txe, b.rxe))
    (queue : b.queue.length ≤ 32 → c.queue.length ≤ 32) : c.settled := by
  obtain ⟨follows, txe, rxe, length⟩ := h
  simp only [Prod.mk.injEq] at same
  obtain ⟨sameState, sameTxe, sameRxe⟩ := same
  unfold BusPort.settled
  rw [sameState, sameTxe, sameRxe]
  exact ⟨follows, txe, rxe, queue length⟩

theorem queue_short (h : b.settled) : b.queue.length ≤ 32 := by
  obtain ⟨-, -, -, length⟩ := h
  exact length

theorem mark (h : b.settled) (id : Nat) : (b.mark id).settled :=
  h.of_same (BusPort.mark_keepsOthers (fun x => (x.state, x.txe, x.rxe)) (fun _ _ _ => rfl) b id) (b.length_mark id)

theorem fill (h : b.settled) : b.fill.settled :=
  h.of_same (BusPort.fill_keeps (fun x => (x.state, x.txe, x.rxe)) (fun _ _ _ _ => rfl) b) b.length_fill

theorem dropSending (h : b.settled) : b.dropSending.settled :=
  h.of_same rfl (le_trans b.length_dropSending)

theorem endAttempt (h : b.settled) : b.endAttempt.settled :=
  h.of_same (BusPort.endAttempt_keeps (fun x => (x.state, x.txe, x.rxe)) (fun _ _ _ _ => rfl) b) b.length_endAttempt

/-- A port comes onto the line with both counts 0 (R148, R155). -/
theorem normal (queue : b.queue.length ≤ 32) (state : b.state = .normal) (txe : b.txe = 0) (rxe : b.rxe = 0) :
    b.settled := by
  unfold BusPort.settled
  rw [state, txe, rxe]
  exact ⟨fun _ => rfl, by decide, by decide, queue⟩

/-- No counts bind a port that is OFF or JOINING. -/
theorem apart (queue : b.queue.length ≤ 32) (offLine : b.state.onLine = false) (attached : b.state ≠ .detached)
    (txe : b.txe = 0) (rxe : b.rxe = 0) : b.settled := by
  unfold BusPort.settled
  rw [offLine, txe, rxe]
  exact ⟨fun bound => bound.elim nofun (absurd · attached), by decide, by decide, queue⟩

/-- R154: the state follows the counts, whatever it was. -/
theorem settle (txe : b.txe ≤ 199) (rxe : b.rxe ≤ 255) (queue : b.queue.length ≤ 32) : b.settle.settled := by
  unfold BusPort.settle
  split
  · next detached => exact ⟨fun _ => detached.symm, txe, rxe, Nat.zero_le 32⟩
  · exact ⟨fun _ => rfl, txe, rxe, queue⟩

/-- R154: a port on the line has at most 191 send errors. -/
theorem few (h : b.settled) (onLine : b.state.onLine = true) : b.txe ≤ 191 := by
  obtain ⟨follows, -⟩ := h
  have follows := follows (.inl onLine)
  by_contra many
  rw [follows, stateOfCounts_detached _ (by omega)] at onLine
  cases onLine

end BusPort.settled

/-! ## The ports of a state -/

theorem State.portsSettled_iff (s : State) : s.portsSettled ↔ ∀ p, (s.port p).settled :=
  ⟨fun h p => by cases p with
    | a => exact h.1
    | b => exact h.2, fun h => ⟨h .a, h .b⟩⟩

namespace State.portsSettled

variable {s t : State}

theorem port (h : s.portsSettled) (p : Port) : (s.port p).settled := s.portsSettled_iff.mp h p

theorem of_fbc (h : s.portsSettled) (same : t.fbc = s.fbc) : t.portsSettled := by
  unfold State.portsSettled
  rw [same]
  exact h

theorem setPort (h : s.portsSettled) {p : Port} {x : BusPort} (settled : x.settled) :
    (setPort p x s).portsSettled := by
  refine (State.portsSettled_iff _).mpr fun o => ?_
  rw [port_setPort]
  split
  · exact settled
  · exact h.port o

/-- Raising notices and writing fixtures leave the ports alone. -/
theorem raise (h : s.portsSettled) (k : NoticeKind) (d : List Field) : (raise k d s).portsSettled := h

theorem setLkd (h : s.portsSettled) (l : Lkd) : (s.setLkd l).portsSettled := h

theorem setFixtures (h : s.portsSettled) (fixtures : Table Fixture) :
    (s.setFbc { s.fbc with fixtures := fixtures }).portsSettled := h

theorem modFixture (h : s.portsSettled) (id : Nat) (f : Fixture → Fixture) : (modFixture id f s).portsSettled := h

theorem enterPort (h : s.portsSettled) {p : Port} {x : BusPort} {new : PortState} {cause : PortCause}
    (settled : ({ x with state := new } : BusPort).settled) :
    (enterPort p new cause (Machine.setPort p x s)).portsSettled := by
  rw [enterPort_setPort]
  exact h.setPort settled

theorem settlePort (h : s.portsSettled) {p : Port} {x : BusPort} (txe : x.txe ≤ 199) (rxe : x.rxe ≤ 255)
    (queue : x.queue.length ≤ 32) : (settlePort p (Machine.setPort p x s)).portsSettled := by
  rw [settlePort_setPort]
  exact h.setPort (.settle txe rxe queue)

/-! ## Fixtures, R157 to R162 -/

theorem enterFixture (h : s.portsSettled) (id : Nat) (new : FixtureState) : (enterFixture id new s).portsSettled := by
  unfold Machine.enterFixture
  split
  · exact h
  · dsimp only
    split
    · exact h
    · exact h

theorem fixtureStatus (h : s.portsSettled) (p : Port) (id : Nat) (payload : List Byte) :
    (fixtureStatus p id payload s).portsSettled := by
  have ignored : (Machine.setPort p { s.port p with ignored := satAdd 65535 (s.port p).ignored 1 } s).portsSettled :=
    h.setPort ((h.port p).of_same rfl fun length => length)
  unfold Machine.fixtureStatus
  split
  · split
    · exact (h.modFixture id _).enterFixture id _
    · exact ignored
  · exact ignored

theorem fixtureClash (h : s.portsSettled) (p : Port) (id address : Nat) :
    (fixtureClash p id address s).portsSettled := by
  unfold Machine.fixtureClash
  split
  · exact h
  · dsimp only
    split <;> exact h

theorem fixtureLogic (h : s.portsSettled) (p : Port) (identifier : Nat) (payload : List Byte) :
    (fixtureLogic p identifier payload s).portsSettled := by
  unfold Machine.fixtureLogic
  split
  · split
    · exact h.fixtureStatus p _ payload
    · split
      · exact h
      · refine State.portsSettled.raise (h.setPort ((h.port p).of_same ?_ ?_)) _ _
        · rfl
        · exact id
  · split
    · exact h.fixtureClash p _ identifier
    · exact h

theorem markDirty (h : s.portsSettled) (id : Nat) : (markDirty id s).portsSettled := by
  unfold Machine.markDirty
  split
  · exact h
  · exact h.setPort ((h.port _).mark id)

theorem compareSent (h : s.portsSettled) (id : Nat) (snapshot : List Nat) :
    (compareSent id snapshot s).portsSettled := by
  unfold Machine.compareSent
  split
  · exact h
  · split
    · exact h
    · exact h.markDirty id

theorem removeFixture (h : s.portsSettled) (id : Nat) : (removeFixture id s).portsSettled := by
  unfold Machine.removeFixture
  split
  · exact h
  · have erased : (s.setFbc { s.fbc with fixtures := s.fbc.fixtures.erase id }).portsSettled := h
    refine erased.setPort (.fill ((erased.port _).of_same rfl fun length => ?_))
    rw [List.length_map]
    exact le_trans (List.length_filter_le _ _) length

/-! ## Levels, R143 -/

theorem markChannel (h : s.portsSettled) (c : Nat) : (markChannel c s).portsSettled :=
  List.foldlRecOn _ _ h fun u hu e _ => by
    split
    · exact State.portsSettled.markDirty hu e.1
    · exact hu

theorem recompute (h : s.portsSettled) (c : Nat) : (recompute c s).portsSettled := by
  unfold Machine.recompute
  dsimp only
  split
  · exact h
  · exact State.portsSettled.markChannel (s := putChannel c _ s) h c

theorem setLevel (h : s.portsSettled) (target v : Nat) : (setLevel target v s).portsSettled := by
  have written : (s.setLvp { s.lvp with targets := put s.lvp.targets target v }).portsSettled := h
  unfold Machine.setLevel
  split
  · exact h
  · dsimp only
    split
    · exact written.recompute target
    · split
      · exact List.foldlRecOn _ _ written fun u hu c _ => State.portsSettled.recompute hu c
      · exact written

theorem trackZone (h : s.portsSettled) (z : Nat) (avg : Averages) : (trackZone z avg s).portsSettled :=
  List.foldlRecOn _ _ h fun u hu c _ => by
    unfold trackChannel
    dsimp only
    split
    · exact State.portsSettled.recompute (s := putChannel c _ u) hu c
    · exact hu

theorem completeZone (h : s.portsSettled) (z : Nat) : (completeZone z s).portsSettled := by
  have written (w : Wse) : (s.setWse w).portsSettled := h
  unfold Machine.completeZone
  split
  · exact h
  · split
    · exact (written _).trackZone z _
    · exact h

theorem configureChannel (h : s.portsSettled) (mode : ChannelMode) (component : Component) (q : SetChannelReq)
    (c : Nat) : (configureChannel mode component q c s).portsSettled :=
  State.portsSettled.recompute (s := putChannel c _ s) h c

theorem createWall (h : s.portsSettled) (q : DefineWallReq) : (createWall q s).portsSettled := by
  have made : (s.setWse { s.wse with walls := s.wse.walls.insert q.wall (newWall q) }).portsSettled := h
  have freed := made.of_fbc (removeWallFades_keeps State.fbc (fun _ _ _ => rfl) (fun _ _ _ => rfl) q.wall _)
  have opened : ((wallTargets q.wall).foldl (fun t target => Machine.setLevel target 65535 t)
      (removeWallFades q.wall _)).portsSettled :=
    List.foldlRecOn _ _ freed fun _ hu target _ => State.portsSettled.setLevel hu target 65535
  exact opened.of_fbc (judge_keeps State.fbc (fun _ _ _ => rfl) (fun _ _ _ => rfl) none _)

/-! ## The Cue Engine at a boundary, R117 to R119 -/

/-- Of what a firing is made of, the levels alone reach the ports. -/
theorem firingsKeep : FiringsKeep State.portsSettled where
  raise _ _ h := h
  regions _ h := h
  walls _ _ h := h
  fades _ h := h
  level target v h := h.setLevel target v
  count _ _ h := h
  judge firing h := h.of_fbc (judge_keeps State.fbc (fun _ _ _ => rfl) (fun _ _ _ => rfl) firing _)
  lists _ _ h := h

theorem fireCue (h : s.portsSettled) (n : Nat) (source : FireSource) : (fireCue n source s).portsSettled := by
  cases stored : s.cue.cues.find n with
  | none =>
    simp only [Machine.fireCue, stored]
    exact h
  | some c => exact firingsKeep.fireCue source stored h

theorem tallyFire (h : s.portsSettled) (rises : List Nat) : (tallyFire rises s).portsSettled := by
  unfold Machine.tallyFire
  split
  · split
    · exact h.fireCue _ _
    · exact h
  · exact h

theorem chooseFire (h : s.portsSettled) (ran : Bool) (a : Nat) (rises : List Nat) :
    (chooseFire ran a rises s).portsSettled := by
  have cueWritten (c : CueEngine) : (s.setCue c).portsSettled := h
  unfold Machine.chooseFire
  split
  · exact (cueWritten _).fireCue _ _
  · split
    · dsimp only
      split
      · exact (cueWritten _).fireCue _ _
      · exact (cueWritten _).tallyFire rises
    · exact h.tallyFire rises

theorem cueAtBoundary (h : s.portsSettled) (rises : List Nat) : (cueAtBoundary rises s).portsSettled := by
  have kept := firingsKeep.toActionsKeep
  have begun : (s.setCue { s.cue with step := none }).portsSettled := h
  refine State.portsSettled.chooseFire (List.foldlRecOn _ _ (kept.startManual ?_) fun _ hu e _ => kept.runDue hu e)
    _ _ rises
  split
  · exact begun
  · exact kept.judge none (firingsKeep.lists _ (by rfl) (kept.advanceFades begun _))

/-! ## The frame boundary, R5 -/

theorem fixtureTick (h : s.portsSettled) (id : Nat) : (fixtureTick s id).portsSettled := by
  have counted : (keepAliveTick id s).portsSettled := by
    unfold keepAliveTick
    split
    · exact h
    · split
      · exact (h.modFixture id _).markDirty id
      · exact h
  refine (State.portsSettled_iff _).mpr fun p => ?_
  rw [Machine.fixtureTick, silenceTick_port]
  exact counted.port p

theorem fbcAtBoundary (h : s.portsSettled) : (fbcAtBoundary s).portsSettled :=
  List.foldlRecOn _ _ h fun _ hu id _ => State.portsSettled.fixtureTick hu id

theorem takeBoundary (h : s.portsSettled) {time : Nat} {lines : BitVec 8} {cut : Bool} {gen : State → State}
    (generator : ∀ u, (gen u).fbc = u.fbc) : (takeBoundary time lines cut gen s).portsSettled := by
  have zones : (completeZones s).portsSettled :=
    List.foldlRecOn _ _ h fun _ hu z _ => State.portsSettled.completeZone hu z
  have begun : (gen ((completeZones s).setRtu ((completeZones s).rtu.beginFrame time))).portsSettled :=
    of_fbc zones (generator _)
  have phased := of_fbc begun (cphAtBoundary_keeps State.fbc (fun _ _ => rfl) (fun _ _ _ => rfl) lines _)
  have live {u : State} (hu : u.portsSettled) : (liveAtBoundary u).portsSettled :=
    hu.of_fbc (liveAtBoundary_keeps State.fbc (fun _ _ => rfl) (fun _ _ _ => rfl) u)
  have scanned {u : State} (hu : u.portsSettled) : (wseAtBoundary u).portsSettled :=
    hu.of_fbc (wseAtBoundary_keeps State.fbc (fun _ _ => rfl) (fun _ _ => rfl) (fun _ _ _ => rfl) (fun _ _ _ => rfl) u)
  exact of_fbc (scanned (live (phased.cueAtBoundary _))).fbcAtBoundary
    (douAtBoundary_keeps State.fbc (fun _ _ => rfl) cut _)

theorem tickBoundary (h : s.portsSettled) (lines : BitVec 8) : (tickBoundary lines s).portsSettled :=
  h.takeBoundary fun u => (endLengthened_keeps State.fbc (fun _ _ => rfl) (fun _ _ _ => rfl) _ _).trans
    (genAtBoundary_keeps State.fbc (fun _ _ => rfl) (fun _ _ _ => rfl) u)

theorem boundaryWhen (h : s.portsSettled) (due : Bool) (lines : BitVec 8) :
    (boundaryWhen due lines s).portsSettled := by
  unfold Machine.boundaryWhen
  split
  · exact h.tickBoundary lines
  · exact h

theorem lateBoundary (h : s.portsSettled) (lines : BitVec 8) : (lateBoundary lines s).portsSettled :=
  h.takeBoundary fun u => (endLengthened_keeps State.fbc (fun _ _ => rfl) (fun _ _ _ => rfl) _ _).trans
    (enterHoldover_keeps State.fbc (fun _ _ => rfl) (fun _ _ _ => rfl) _ u)

theorem lock (h : s.portsSettled) (time p : Nat) (lines : BitVec 8) : (lock time p lines s).portsSettled := by
  have locked (u : State) : (enterLocked time p u).fbc = u.fbc :=
    enterLocked_keeps State.fbc (fun _ _ => rfl) (fun _ _ _ => rfl) time p u
  have slipped (slip : Int) (length : Nat) (u : State) : (endSlip slip length (enterLocked time p u)).fbc = u.fbc :=
    (endSlip_keeps State.fbc (fun _ _ => rfl) (fun _ _ _ => rfl) slip length _).trans (locked u)
  unfold Machine.lock
  dsimp only
  split
  · exact h.of_fbc (slipped _ _ _)
  · split
    · exact h.takeBoundary fun u => slipped _ _ u
    · exact h.of_fbc (locked _)

theorem acquire (h : s.portsSettled) (time p : Nat) (lines : BitVec 8) : (acquire time p lines s).portsSettled := by
  have warned (r : Rtu) : (warnStandard p (s.setRtu r)).portsSettled :=
    h.of_fbc (warnStandard_keeps State.fbc (fun _ _ => rfl) (fun _ _ _ => rfl) p _)
  unfold Machine.acquire
  split
  · dsimp only
    split
    · exact (warned _).lock time p lines
    · exact warned _
  · exact h

theorem referenceStart (h : s.portsSettled) (time : Nat) (lines : BitVec 8) :
    (referenceStart time lines s).portsSettled := by
  have measured : (s.setRtu (s.rtu.measure time)).portsSettled := h
  have acquiring (origin : AcqOrigin) (started : Bool) (cause : RefCause) :
      (enterAcquiring origin started cause (s.setRtu (s.rtu.measure time))).portsSettled :=
    measured.of_fbc (enterAcquiring_keeps State.fbc (fun _ _ => rfl) (fun _ _ _ => rfl) origin started cause _)
  unfold Machine.referenceStart
  dsimp only
  split
  · split
    · exact acquiring _ _ _
    · exact measured
  · split
    · exact acquiring _ _ _
    · exact measured
  · exact measured.acquire time _ lines
  · split
    · exact measured
    · exact measured.takeBoundary fun u =>
        (endLengthened_keeps State.fbc (fun _ _ => rfl) (fun _ _ _ => rfl) _ _).trans
          (onTimeStart_keeps State.fbc (fun _ _ => rfl) (fun _ _ _ => rfl) time u)

end State.portsSettled

end Sys2Proof.Machine
end

section
/-! PROOF. Every step keeps the ports settled (O58). -/

namespace Sys2Proof.Machine

/-- The next state, if there is one, has settled ports. -/
def PortsSettledAfter (r : Result) : Prop := ∀ t, r = .next t → t.portsSettled

namespace PortsSettledAfter

variable {s t : State}

theorem next (h : t.portsSettled) : PortsSettledAfter (.next t) := by
  rintro _ ⟨⟩
  exact h

theorem kept {r : Result} (h : s.portsSettled) (bus : s.busKeptBy r) : PortsSettledAfter r :=
  fun t ht => h.of_fbc (bus t ht)

theorem served {cmd : Instr} {tag kind : Byte} {handle : State → Answer} (h : s.portsSettled)
    (handled : ∀ u, u.portsSettled → (handle u).state.portsSettled) :
    PortsSettledAfter (.next (serve cmd tag kind handle s)) :=
  .next (serve_fbc (P := fun f => f.portA.settled ∧ f.portB.settled) h fun u same => handled u (h.of_fbc same))

end PortsSettledAfter

section

variable {s : State}

/-! ## Resets and frame pulses -/

theorem fullReset_portsSettled (r : ResetIn) (s : State) : (fullReset r s).portsSettled := reset_portsSettled

theorem execResetPin_portsSettled (r : ResetIn) : PortsSettledAfter (execResetPin r s) := by
  refine .next ((fullReset_portsSettled r s).of_fbc ?_)
  unfold cutSending
  split
  · split <;> rfl
  · rfl

theorem execFullReset_portsSettled (h : s.portsSettled) (r : ResetIn) : PortsSettledAfter (execFullReset r s) := by
  unfold execFullReset
  split
  · exact .next (fullReset_portsSettled r s)
  · exact .next h

theorem execFrameBoundary_portsSettled (h : s.portsSettled) (lines : BitVec 8) :
    PortsSettledAfter (execFrameBoundary lines s) := by
  unfold execFrameBoundary
  split
  · exact .next (h.tickBoundary lines)
  · exact .next h

theorem execLateLimit_portsSettled (h : s.portsSettled) (lines : BitVec 8) :
    PortsSettledAfter (execLateLimit lines s) := by
  unfold execLateLimit
  split
  · exact .next (h.lateBoundary lines)
  · exact .next h

theorem execFramePulse_portsSettled (h : s.portsSettled) (p : FramePulse) :
    PortsSettledAfter (execFramePulse p s) := by
  have before :
      (if s.rtu.gen = .locked ∧ s.rtu.lateTime < p.time then lateBoundary p.tally s else s).portsSettled := by
    split
    · exact h.lateBoundary p.tally
    · exact h
  unfold execFramePulse
  dsimp only
  generalize (if s.rtu.gen = .locked ∧ s.rtu.lateTime < p.time then lateBoundary p.tally s else s) = u at before ⊢
  have sensed : (setLines p.tally (u.setRtu (u.rtu.advance p.time))).portsSettled := before
  split
  · exact .next (sensed.referenceStart _ _)
  · exact .next sensed

/-! ## Events on the line -/

theorem execPortJoined_portsSettled (h : s.portsSettled) (p : Port) : PortsSettledAfter (execPortJoined p s) := by
  unfold execPortJoined
  split
  · exact .next (h.enterPort (.normal (h.port p).queue_short rfl rfl rfl))
  · exact .next h

theorem execQuietPeriod_portsSettled (h : s.portsSettled) (p : Port) : PortsSettledAfter (execQuietPeriod p s) := by
  unfold execQuietPeriod
  split
  · exact .next (h.setPort ((h.port p).of_same rfl id))
  · exact .next h

theorem execPortRecovered_portsSettled (h : s.portsSettled) (p : Port) :
    PortsSettledAfter (execPortRecovered p s) := by
  unfold execPortRecovered
  dsimp only
  split
  · have joined : BusPort.settled { s.port p with state := .normal, txe := 0, rxe := 0 } :=
      .normal (h.port p).queue_short rfl rfl rfl
    rw [enterPort_setPort]
    refine .next (State.portsSettled.setPort (State.portsSettled.setLkd (h.setPort joined) _) (.fill ?_))
    rw [setLkd_port, port_setPort_same]
    exact BusPort.settled.of_same joined rfl id
  · exact .next h

theorem execSendStart_portsSettled (h : s.portsSettled) (p : Port) (idleBits : Nat) :
    PortsSettledAfter (execSendStart p idleBits s) := by
  unfold execSendStart
  dsimp only
  split
  · split
    · exact .next h
    · split
      · exact .next h
      · refine .next (h.setPort ((h.port p).of_same ?_ fun length => ?_))
        · rfl
        · rw [BusPort.length_begin]
          exact length
  · exact .next h

theorem execLostArbitration_portsSettled (h : s.portsSettled) (p : Port) :
    PortsSettledAfter (execLostArbitration p s) := by
  unfold execLostArbitration
  dsimp only
  split
  · exact .next h
  · exact .next (h.setPort ((h.port p).endAttempt.of_same rfl id))

theorem execSendSuccess_portsSettled (h : s.portsSettled) (p : Port) : PortsSettledAfter (execSendSuccess p s) := by
  obtain ⟨-, txe, rxe, queue⟩ := h.port p
  unfold execSendSuccess
  dsimp only
  split
  · exact .next h
  · have ended := h.settlePort (p := p)
      (x := { s.port p with txe := (s.port p).txe - 1, drive := .released, lastOwn := true })
      (le_trans (Nat.sub_le _ 1) txe) rxe queue
    have refilled := ended.setPort (p := p) (ended.port p).dropSending.fill
    split
    · exact .next ((refilled.modFixture _ _).compareSent _ _)
    · exact .next refilled

theorem execValidReception_portsSettled (h : s.portsSettled) (p : Port) (r : BusReception) :
    PortsSettledAfter (execValidReception p r s) := by
  obtain ⟨-, txe, rxe, queue⟩ := h.port p
  unfold execValidReception
  dsimp only
  split
  · split
    · exact .next h
    · split
      · exact .next (h.setPort ((h.port p).of_same rfl id))
      · have heard := h.settlePort (p := p)
          (x := { s.port p with rxe := (s.port p).rxe - 1, drive := .ack, lastOwn := false })
          txe (le_trans (Nat.sub_le _ 1) rxe) queue
        split
        · exact .next (heard.fixtureLogic p _ _)
        · exact .next heard
  · exact .next h

/-- R153, R154: the port was on the line, so that TXE was at most 191 before the 8 that a send error adds. -/
theorem execBusError_portsSettled (h : s.portsSettled) (p : Port) (e : BusFault) :
    PortsSettledAfter (execBusError p e s) := by
  obtain ⟨-, txe, rxe, queue⟩ := h.port p
  unfold execBusError
  dsimp only
  split
  · next counts =>
    obtain ⟨onLine, -⟩ := Bool.and_eq_true_iff.mp counts
    have few := (h.port p).few onLine
    split
    · split
      · exact .next (h.setPort ((h.port p).of_same rfl id))
      · exact .next h
    · have counted (x : BusPort) (count : x = { s.port p with txe := (s.port p).txe + 8, lastOwn := true } ∨
          x = { s.port p with rxe := satAdd 255 (s.port p).rxe 1, lastOwn := false }) :
          (settlePort p (setPort p x s)).portsSettled := by
        rcases count with rfl | rfl
        · exact h.settlePort (by dsimp only; omega) rxe queue
        · exact h.settlePort txe (satAdd_le 255 _ 1) queue
      have settled := counted _ (ite_eq_or_eq ((s.port p).sending.isSome = true) _ _)
      exact .next (settled.setPort ((settled.port p).endAttempt.of_same rfl id))
  · exact .next h

/-! ## Requests -/

theorem Answer.checked_portsSettled {checks : List (Bool × Status)} {ok : Answer} (h : s.portsSettled)
    (passed : ok.state.portsSettled) : (checked checks s ok).state.portsSettled := by
  unfold checked
  split
  · exact h
  · exact passed

theorem Answer.ite_portsSettled {c : Prop} [Decidable c] {a b : Answer} (ha : a.state.portsSettled)
    (hb : b.state.portsSettled) : (if c then a else b).state.portsSettled := by
  split
  · exact ha
  · exact hb

theorem defineWall_portsSettled (h : s.portsSettled) (q : DefineWallReq) : (defineWall q s).state.portsSettled :=
  Answer.checked_portsSettled h (h.createWall q)

theorem setChannel_portsSettled (h : s.portsSettled) (q : SetChannelReq) : (setChannel q s).state.portsSettled := by
  unfold setChannel
  split
  · exact h
  · exact List.foldlRecOn _ _ h fun _ hu i _ => State.portsSettled.configureChannel hu _ _ q (q.first + i)
  · exact h

/-- R147: an enabled port is JOINING, and one that is disabled OFF, each with both counts 0. -/
theorem changeBus_portsSettled (h : s.portsSettled) (p : Port) (enable : Bool) (rate : Option Nat) :
    (changeBus p enable rate s).portsSettled := by
  have queue := (h.port p).queue_short
  unfold changeBus
  dsimp only
  split
  · have entered := h.enterPort (p := p) (new := .joining) (cause := .enabled)
      (x := { s.port p with enabled := true, rate := rate.getD (s.port p).rate, txe := 0, rxe := 0 })
      (.apart queue rfl nofun rfl rfl)
    exact entered.setPort (entered.port p).fill
  · exact h
  · exact h.enterPort (.apart (Nat.zero_le 32) rfl nofun rfl rfl)
  · exact h.setPort ((h.port p).of_same rfl id)

theorem setBus_portsSettled (h : s.portsSettled) (q : SetBusReq) : (setBus q s).state.portsSettled := by
  unfold setBus
  split
  · exact h
  · exact Answer.ite_portsSettled h (changeBus_portsSettled h _ _ _)
  · exact h

theorem setFilter_portsSettled (h : s.portsSettled) (q : SetFilterReq) : (setFilter q s).state.portsSettled := by
  unfold setFilter
  split
  · exact h
  · split
    · exact h
    · exact h.setPort ((h.port _).of_same rfl id)
  · exact h

theorem defineFixture_portsSettled (h : s.portsSettled) (q : DefineFixtureReq) :
    (defineFixture q s).state.portsSettled := by
  unfold defineFixture
  split
  · exact h
  · exact h
  · exact Answer.checked_portsSettled h (((h.removeFixture q.id).setFixtures _).markDirty q.id)

theorem deleteFixture_portsSettled (h : s.portsSettled) (id : Nat) : (deleteFixture id s).state.portsSettled := by
  unfold deleteFixture
  split
  · exact h
  · exact h
  · exact h.removeFixture id

/-! ## The step -/

theorem exec_portsSettled (i : Instr) (h : s.portsSettled) : PortsSettledAfter (exec i s) := by
  cases i with
  | powerOn r => exact .next (fullReset_portsSettled r s)
  | resetPin r => exact execResetPin_portsSettled r
  | fullReset r => exact execFullReset_portsSettled h r
  | framePulse p => exact execFramePulse_portsSettled h p
  | lateLimit lines => exact execLateLimit_portsSettled h lines
  | frameBoundary lines => exact execFrameBoundary_portsSettled h lines
  | acquisitionAbandoned | holdoverExpired | waitEntryDue | followExpiry | fadeEnd | feedLost | keepAliveExpiry
  | silenceLimit => exact .next (h.boundaryWhen _ _)
  | zoneComplete z => exact .next (h.completeZone z)
  | defineWall _ q => exact .served h fun u hu => defineWall_portsSettled hu q
  | setChannel _ q => exact .served h fun u hu => setChannel_portsSettled hu q
  | setBus _ q => exact .served h fun u hu => setBus_portsSettled hu q
  | setFilter _ q => exact .served h fun u hu => setFilter_portsSettled hu q
  | defineFixture _ q => exact .served h fun u hu => defineFixture_portsSettled hu q
  | deleteFixture _ id => exact .served h fun u hu => deleteFixture_portsSettled hu id
  | portJoined p => exact execPortJoined_portsSettled h p
  | portRecovered p => exact execPortRecovered_portsSettled h p
  | quietPeriod p => exact execQuietPeriod_portsSettled h p
  | sendStart p idleBits => exact execSendStart_portsSettled h p idleBits
  | lostArbitration p => exact execLostArbitration_portsSettled h p
  | sendSuccess p => exact execSendSuccess_portsSettled h p
  | validReception p r => exact execValidReception_portsSettled h p r
  | busError p e => exact execBusError_portsSettled h p e
  | _ => exact .kept h (exec_bus rfl s)

theorem step_portsSettled (h : s.portsSettled) : PortsSettledAfter (step s) := by
  unfold step
  split
  · exact exec_portsSettled _ h
  · unfold idle
    split
    · exact .next h
    · exact exec_portsSettled _ h
    · exact .next h

end

/-- Settles O58: what an error, a reception or a send counts is followed by the state that the counts give, a port enters
any other state with both counts 0, and every queue is filled up to 32. -/
theorem stepKeepsPortsSettled : Obligations.StepKeepsPortsSettled :=
  fun _ t h ht => step_portsSettled h t ht

end Sys2Proof.Machine
end

section
/-! PROOF. A bus frame read off the line (O54). -/

namespace Sys2Proof.Machine

/-! ## Bits -/

@[simp] theorem length_bitsOf (n x : Nat) : (bitsOf n x).length = n := by
  induction n with
  | zero => rfl
  | succ n ih => rw [bitsOf, List.length_cons, ih]

/-- Reading bits behind the number `acc` read so far. -/
theorem foldl_bitsOf (n x acc : Nat) :
    (bitsOf n x).foldl (fun acc b => 2 * acc + (if b then 1 else 0)) acc = acc * 2 ^ n + x % 2 ^ n := by
  induction n generalizing acc with
  | zero => simp [bitsOf, Nat.mod_one]
  | succ n ih =>
    have top : x % 2 ^ (n + 1) = x % 2 ^ n + 2 ^ n * (if x.testBit n then 1 else 0) := by
      rw [Nat.mod_pow_succ, Nat.testBit_eq_decide_div_mod_eq]
      rcases Nat.mod_two_eq_zero_or_one (x / 2 ^ n) with bit | bit <;> simp [bit]
    rw [bitsOf, List.foldl_cons, ih, top, Nat.pow_succ]
    ring

theorem natOfBits_bitsOf {n x : Nat} (fits : x < 2 ^ n) : natOfBits (bitsOf n x) = x := by
  rw [natOfBits, foldl_bitsOf, Nat.zero_mul, Nat.zero_add, Nat.mod_eq_of_lt fits]

theorem byte_natOfBits_byteBits (b : Byte) : byte (natOfBits (byteBits b)) = b := by
  rw [byteBits, natOfBits_bitsOf b.isLt, byte, BitVec.ofNat_toNat, BitVec.setWidth_eq]

theorem length_flatMap_byteBits (payload : List Byte) : (payload.flatMap byteBits).length = 8 * payload.length := by
  induction payload with
  | nil => rfl
  | cons b rest ih =>
    rw [List.flatMap_cons, List.length_append, ih, byteBits, length_bitsOf, List.length_cons]
    omega

theorem bytesOfBits_flatMap_byteBits (payload : List Byte) :
    bytesOfBits payload.length (payload.flatMap byteBits) = payload := by
  induction payload with
  | nil => rfl
  | cons b rest ih =>
    have eight : (byteBits b).length = 8 := length_bitsOf 8 _
    rw [List.flatMap_cons, List.length_cons, bytesOfBits, List.take_left' eight, List.drop_left' eight, ih,
      byte_natOfBits_byteBits]

/-! ## Stuffing, R150 -/

/-- Bits read off a stuffed line come without the stuffed ones, and what is left is the stuffed rest: reader and sender
hold the same run at every bit. -/
theorem destuff_stuff (sent later line : List Bool) (last : Bool) (run : Nat) :
    ∃ (last' : Bool) (run' : Nat), destuff sent.length last run (stuff last run (sent ++ later) ++ line) =
      some ⟨sent, last', run', stuff last' run' later ++ line⟩ := by
  induction sent generalizing last run with
  | nil => exact ⟨last, run, rfl⟩
  | cons b rest ih =>
    by_cases six : (if b = last then run + 1 else 1) = 6
    · obtain ⟨last', run', read⟩ := ih (!b) 1
      refine ⟨last', run', ?_⟩
      simp only [List.cons_append, List.length_cons, stuff, destuff, six, if_true, Bool.not_eq_self, if_false, read,
        Option.map_some]
    · obtain ⟨last', run', read⟩ := ih b (if b = last then run + 1 else 1)
      refine ⟨last', run', ?_⟩
      simp only [List.cons_append, List.length_cons, stuff, destuff, six, if_false, read, Option.map_some]

/-! ## The frame -/

/-- The start bit, the identifier and the length: what a reader needs to know how much follows. -/
def busStart (identifier length : Nat) : List Bool := false :: (bitsOf 10 identifier ++ bitsOf 6 length)

theorem length_busStart (identifier length : Nat) : (busStart identifier length).length = 17 := by
  simp [busStart]

/-- The payload bits and the check. -/
def busBody (identifier : Nat) (payload : List Byte) : List Bool :=
  payload.flatMap byteBits ++ bitsOf 16 (busCheck (busHead identifier payload).tail).toNat

theorem length_busBody (identifier : Nat) (payload : List Byte) :
    (busBody identifier payload).length = 8 * payload.length + 16 := by
  rw [busBody, List.length_append, length_flatMap_byteBits, length_bitsOf]

theorem busBits_eq (identifier : Nat) (payload : List Byte) :
    busBits identifier payload = busStart identifier payload.length ++ busBody identifier payload := by
  simp [busBits, busBody, busHead, busStart]

theorem busHead_tail (identifier : Nat) (payload : List Byte) :
    (busHead identifier payload).tail = (busStart identifier payload.length).tail ++ payload.flatMap byteBits := by
  simp [busHead, busStart]

theorem busStart_identifier {identifier : Nat} (length : Nat) (fits : identifier < 1024) :
    natOfBits (((busStart identifier length).drop 1).take 10) = identifier := by
  rw [busStart, List.drop_one, List.tail_cons, List.take_left' (length_bitsOf 10 identifier)]
  exact natOfBits_bitsOf fits

theorem busStart_length (identifier : Nat) {length : Nat} (fits : length ≤ 32) :
    natOfBits ((busStart identifier length).drop 11) = length := by
  have eleven : (false :: bitsOf 10 identifier).length = 11 := by simp
  rw [busStart, ← List.cons_append, List.drop_left' eleven]
  exact natOfBits_bitsOf (by omega)

/-- A frame followed by the acknowledgement slot, however it reads, and the end. -/
theorem readBusFrame_sent {identifier : Nat} {payload : List Byte} (id : identifier < 1024)
    (length : payload.length ≤ 32) (ack : Bool) :
    readBusFrame (stuff false 0 (busBits identifier payload) ++ ack :: List.replicate 7 true) =
      some (identifier, payload) := by
  have bits := length_flatMap_byteBits payload
  obtain ⟨last, run, start⟩ := destuff_stuff (busStart identifier payload.length) (busBody identifier payload)
    (ack :: List.replicate 7 true) false 0
  obtain ⟨last', run', body⟩ := destuff_stuff (busBody identifier payload) [] (ack :: List.replicate 7 true) last run
  rw [length_busStart, ← busBits_eq] at start
  rw [length_busBody, List.append_nil] at body
  have payloadBits : (busBody identifier payload).take (8 * payload.length) = payload.flatMap byteBits := by
    rw [busBody, List.take_left' bits]
  have checkBits : (busBody identifier payload).drop (8 * payload.length) =
      bitsOf 16 (busCheck (busHead identifier payload).tail).toNat := by
    rw [busBody, List.drop_left' bits]
  have headOk : ¬((busStart identifier payload.length).head? = some true ∨ 32 < payload.length) := by
    rintro (dominant | long)
    · cases dominant
    · exact Nat.not_lt.mpr length long
  simp only [readBusFrame, start, busStart_length identifier length, headOk, if_false, body, payloadBits, checkBits,
    ← busHead_tail, stuff, List.nil_append, List.tail_cons, and_self, if_true, busStart_identifier _ id,
    bytesOfBits_flatMap_byteBits]

/-- Settles O54: the sender leaves the acknowledgement slot recessive, and the reader takes it either way. -/
theorem busFramesRoundTrip : Obligations.BusFramesRoundTrip :=
  fun _ _ id length => ⟨readBusFrame_sent id length true, readBusFrame_sent id length⟩

end Sys2Proof.Machine
end

section
/-! PROOF. How a port comes onto the line (O52). -/

namespace Sys2Proof.Machine

theorem State.portEntered_new {s : State} {p : Port} {x : BusPort} {new : PortState} {cause : PortCause}
    (change : x.state ≠ new) :
    s.portEntered p x new cause = s.lkd.raise ⟨.portState, s.rtu.counter,
      [.u2 (portCode p), .u2 x.state.code, .u2 new.code, .u2 cause.code, .u2 x.txe, .u2 x.rxe]⟩ := if_neg change

/-- R155: the dirty set with every fixture of the port put into it. -/
theorem mem_dirtyAll (p : Port) (fixtures : Table Fixture) (b : BusPort) (id : Nat) :
    id ∈ (dirtyAll p fixtures b).dirty ↔ id ∈ b.dirty ∨ ∃ f, (id, f) ∈ fixtures ∧ f.port = p := by
  have onPort : (dirtyAll p fixtures b).dirty =
      (fixtures.filter (fun e => decide (e.2.port = p))).foldl (fun d e => insertId e.1 d) b.dirty := by
    rw [List.foldl_filter]
    simp only [dirtyAll, decide_eq_true_eq]
  rw [onPort, mem_foldl_insertId Prod.fst]
  simp only [List.mem_filter, decide_eq_true_eq, Prod.exists, and_assoc]
  constructor
  · rintro (old | ⟨_, f, mem, own, rfl⟩)
    · exact .inl old
    · exact .inr ⟨f, mem, own⟩
  · rintro (old | ⟨f, mem, own⟩)
    · exact .inl old
    · exact .inr ⟨id, f, mem, own, rfl⟩

section

variable {p : Port} {s : State}

/-- R148, R155: a port as it comes onto the line, with both counts 0. -/
def BusPort.joined (b : BusPort) : BusPort := { b with state := .normal, txe := 0, rxe := 0 }

/-- R149: what the Link Dispatcher holds after a port has become NORMAL with both counts 0. -/
def State.normalRaised (s : State) (p : Port) (cause : PortCause) : Lkd :=
  s.lkd.raise ⟨.portState, s.rtu.counter,
    [.u2 (portCode p), .u2 (s.port p).state.code, .u2 PortState.normal.code, .u2 cause.code, .u2 0, .u2 0]⟩

theorem enterPort_joined {cause : PortCause} (change : (s.port p).state ≠ .normal) :
    enterPort p .normal cause (setPort p { s.port p with txe := 0, rxe := 0 } s) =
      (setPort p (s.port p).joined s).setLkd (s.normalRaised p cause) :=
  (enterPort_setPort p _ .normal cause s).trans (congrArg (State.setLkd _) (State.portEntered_new change))

theorem exec_portJoined (joining : (s.port p).state = .joining) :
    exec (.portJoined p) s = .next ((setPort p (s.port p).joined s).setLkd (s.normalRaised p .joined)) := by
  show execPortJoined p s = _
  rw [execPortJoined, if_pos joining, enterPort_joined (by rw [joining]; nofun)]

theorem exec_quietPeriod :
    exec (.quietPeriod p) s = .next (if (s.port p).state = .detached then
      setPort p { s.port p with quiet := min 64 ((s.port p).quiet + 1) } s else s) :=
  (apply_ite Host.Outcome.next _ _ _).symm

theorem exec_portRecovered (detached : (s.port p).state = .detached) (quiet : 64 ≤ (s.port p).quiet) :
    exec (.portRecovered p) s = .next
      ((setPort p (dirtyAll p s.fbc.fixtures (s.port p).joined).fill s).setLkd (s.normalRaised p .recovered)) := by
  show execPortRecovered p s = _
  rw [execPortRecovered, if_pos ⟨detached, quiet⟩, enterPort_joined (by rw [detached]; nofun)]
  simp only [State.setLkd_fbc, fixtures_setPort, setLkd_port, port_setPort_same, setPort_setLkd, setPort_setPort]

end

/-- Settles O52: an equation for each of the three events, and what filling leaves of the port. -/
theorem portsJoinAndRecover : Obligations.PortsJoinAndRecover := by
  intro p s b toNormal
  refine ⟨fun joining => ⟨_, exec_portJoined joining, ?_, fun o other => ?_, ?_, rfl⟩, fun other => if_neg other,
    exec_quietPeriod, fun detached quiet => ⟨_, exec_portRecovered detached quiet, ?_⟩, fun other => if_neg ?_⟩
  · exact port_setPort_same p _ s
  · exact port_setPort_other _ s other
  · exact fixtures_setPort p _ s
  · have kept := BusPort.fill_keeps (fun x => (x.state, x.txe, x.rxe, x.filters)) (fun _ _ _ _ => rfl)
      (dirtyAll p s.fbc.fixtures (s.port p).joined)
    simp only [Prod.mk.injEq] at kept
    obtain ⟨state, txe, rxe, filters⟩ := kept
    rw [setLkd_port, port_setPort_same]
    refine ⟨state, txe, rxe, filters, fun id f found own => ?_, fun o other => ?_, ?_, rfl⟩
    · exact BusPort.fill_marks ((mem_dirtyAll p _ _ id).mpr (.inr ⟨f, Table.mem_of_find found, own⟩))
    · exact port_setPort_other _ s other
    · exact fixtures_setPort p _ s
  · rintro ⟨detached, quiet⟩
    exact other.elim (absurd detached) (absurd quiet ∘ Nat.not_le.mpr)

end Sys2Proof.Machine
end

section
/-! SUPPORT. The counts of a port that is on the line, R152 to R154: each event counts, the state follows, and PORT_STATE is
raised where it changes; and the frames that the fixture logic takes, R157. -/

namespace Sys2Proof.Machine

/-! ## A port's part on the line -/

namespace BusPort

/-- What a port's part on the line rests on, beside its queue. -/
def part (b : BusPort) : PortState × Nat × Nat × LineDrive × Bool := (b.state, b.txe, b.rxe, b.drive, b.lastOwn)

@[simp] theorem part_fill (b : BusPort) : b.fill.part = b.part := fill_keeps part (fun _ _ _ _ => rfl) b

@[simp] theorem part_mark (b : BusPort) (id : Nat) : (b.mark id).part = b.part :=
  mark_keepsOthers part (fun _ _ _ => rfl) b id

@[simp] theorem part_endAttempt (b : BusPort) : b.endAttempt.part = b.part :=
  endAttempt_keeps part (fun _ _ _ _ => rfl) b

end BusPort

theorem PortState.onLine_of {b : PortState} (h : b = .normal ∨ b = .passive) : b.onLine = true := by
  rcases h with rfl | rfl <;> rfl

/-- R153: past the delimiter, or with no error mark before it, a port is no longer sending its mark. -/
theorem LineDrive.marking_over {d : LineDrive} {n : Nat} (passed : (∀ dominant j, d ≠ .mark dominant j) ∨ 9 ≤ n) :
    d.marking n = false := by
  cases d with
  | mark dominant j => exact decide_eq_false (Nat.not_lt.mpr (passed.resolve_left fun none => none dominant j rfl))
  | released => rfl
  | sending bits => rfl
  | ack => rfl

theorem LineDrive.marking_mark {d : LineDrive} {dominant : Bool} {j n : Nat} (mark : d = .mark dominant j) (n_lt : n < 9) :
    d.marking n = true := by
  rw [mark]
  exact decide_eq_true n_lt

/-! ## Counting, R154 -/

/-- R154: what the Link Dispatcher holds after a port has counted up or down to TXE and RXE. -/
def State.countsRaised (s : State) (p : Port) (txe rxe : Nat) : Lkd :=
  if stateOfCounts txe rxe = (s.port p).state then s.lkd
  else s.lkd.raise ⟨.portState, s.rtu.counter,
    [.u2 (portCode p), .u2 (s.port p).state.code, .u2 (stateOfCounts txe rxe).code, .u2 PortCause.errors.code,
      .u2 txe, .u2 rxe]⟩

theorem settlePort_counted {p : Port} {s : State} {x : BusPort} (state : x.state = (s.port p).state) :
    settlePort p (setPort p x s) = (setPort p x.settle s).setLkd (s.countsRaised p x.txe x.rxe) := by
  rw [settlePort_setPort, State.portEntered, State.countsRaised, state]
  exact congrArg (State.setLkd _) (if_congr eq_comm rfl rfl)

/-- R153, R154: the mark that a port sends after an error, by the counts. -/
theorem errorMark_onLine {txe : Nat} (rxe j : Nat) (few : txe ≤ 191) :
    errorMark j (stateOfCounts txe rxe) = .mark (decide (txe < 96 ∧ rxe < 96)) j := by
  rw [stateOfCounts_onLine rxe few]
  by_cases h : txe < 96 ∧ rxe < 96
  · rw [if_pos h, decide_eq_true h]
    rfl
  · rw [if_neg h, decide_eq_false h]
    rfl

/-! ## Fixtures, R157 and R162 -/

@[simp] theorem port_modFixture (id : Nat) (f : Fixture → Fixture) (s : State) (o : Port) :
    (modFixture id f s).port o = s.port o := by
  cases o <;> rfl

theorem port_enterFixture (id : Nat) (new : FixtureState) (s : State) (o : Port) :
    (enterFixture id new s).port o = s.port o := by
  unfold enterFixture
  split
  · rfl
  · dsimp only
    split <;> exact port_modFixture id _ s o

/-- R162: a success marks the fixture again where its outputs have changed since. -/
theorem compareSent_eq {id : Nat} {f : Fixture} {s : State} (found : s.fbc.fixtures.find id = some f)
    (snapshot : List Nat) :
    compareSent id snapshot s = setPort f.port
      (if s.outputs f.first f.count = snapshot then s.port f.port else (s.port f.port).mark id) s := by
  simp only [compareSent, markDirty, found]
  split
  · rw [setPort_port]
  · rfl

/-- R159: a fixture enters a state, and FIXTURE_STATE is raised where it is a change. -/
theorem enterFixture_lkd {id : Nat} {f : Fixture} {new : FixtureState} {degrees : Int} {s : State}
    (found : s.fbc.fixtures.find id = some f) (temperature : f.temperature = some degrees) :
    (enterFixture id new s).lkd = if new = f.state then s.lkd else s.lkd.raise ⟨.fixtureState, s.rtu.counter,
      [.u2 id, .u2 (portCode f.port), .u2 f.address, .u2 f.state.code, .u2 new.code, .i2 degrees]⟩ := by
  simp only [enterFixture, found, temperature, eq_comm (a := new)]
  split <;> rfl

theorem conditionOfCode_eq {n : Nat} (known : n ≤ 2) :
    conditionOfCode n = some (if n = 0 then .ok else if n = 1 then .warn else .fault) := by
  match n with
  | 0 | 1 | 2 => rfl

theorem conditionOfCode_none {n : Nat} (unknown : 2 < n) : conditionOfCode n = none := by
  match n with
  | n + 3 => rfl

/-- R157: a temperature is recorded within -40..125. -/
theorem recordTemperature_eq (b : Byte) :
    recordTemperature b = if b.toInt < -40 then -40 else if 125 < b.toInt then 125 else b.toInt := by
  unfold recordTemperature
  split
  · omega
  · split <;> omega

theorem length_insertId {k : Nat} {l : List Nat} (new : k ∉ l) : (insertId k l).length = l.length + 1 := by
  induction l with
  | nil => rfl
  | cons j rest ih =>
    obtain ⟨other, new⟩ := not_or.mp (mt List.mem_cons.mpr new)
    simp only [insertId, other, if_false]
    split
    · rfl
    · rw [List.length_cons, ih new, List.length_cons]

section Logic

variable {p : Port} {identifier : Nat} {payload : List Byte} {s : State}

/-- R157: a status frame of the right length and with a known condition. -/
theorem fixtureLogic_status {id : Nat} {condition degrees : Byte} (status : 512 ≤ identifier)
    (known : fixtureAt p (identifier - 512) s.fbc.fixtures = some id) (inRange : condition.toNat ≤ 2) :
    fixtureLogic p identifier [condition, degrees] s =
      enterFixture id (if condition.toNat = 0 then .ok else if condition.toNat = 1 then .warn else .fault)
        (modFixture id (fun f => { f with temperature := some (recordTemperature degrees), silence := 0 }) s) := by
  simp only [fixtureLogic, status, if_true, known, fixtureStatus, conditionOfCode_eq inRange]

/-- R157: a status frame of another length or with an unknown condition is counted as ignored. -/
theorem fixtureLogic_ignored {id : Nat} (status : 512 ≤ identifier)
    (known : fixtureAt p (identifier - 512) s.fbc.fixtures = some id)
    (wrong : ∀ condition degrees : Byte, payload = [condition, degrees] → 2 < condition.toNat) :
    fixtureLogic p identifier payload s =
      setPort p { s.port p with ignored := min 65535 ((s.port p).ignored + 1) } s := by
  simp only [fixtureLogic, status, if_true, known, fixtureStatus]
  split
  · next condition degrees =>
    rw [conditionOfCode_none (wrong condition degrees rfl)]
    rfl
  · rfl

/-- R157: a status frame from an unknown address is noted the first time. -/
theorem fixtureLogic_unknown (status : 512 ≤ identifier)
    (unknown : fixtureAt p (identifier - 512) s.fbc.fixtures = none) :
    fixtureLogic p identifier payload s =
      if identifier - 512 ∈ (s.port p).unknown then s
      else raise .unknownSource [.u2 (portCode p), .u2 (identifier - 512)]
        (setPort p { s.port p with unknown := insertId (identifier - 512) (s.port p).unknown } s) := by
  simp only [fixtureLogic, status, if_true, unknown, List.contains_iff_mem]

/-- R157: a level frame for the address of a fixture of the table. -/
theorem fixtureLogic_clash {id : Nat} {f : Fixture} (level : identifier < 512)
    (known : fixtureAt p identifier s.fbc.fixtures = some id) (found : s.fbc.fixtures.find id = some f) :
    fixtureLogic p identifier payload s =
      if f.clash = true then modFixture id (fun x => { x with clash := true }) s
      else raise .addressClash [.u2 id, .u2 (portCode p), .u2 identifier]
        (modFixture id (fun x => { x with clash := true }) s) := by
  simp only [fixtureLogic, Nat.not_le.mpr level, if_false, known, fixtureClash, found]

/-- R157: any other level frame. -/
theorem fixtureLogic_level (level : identifier < 512) (unknown : fixtureAt p identifier s.fbc.fixtures = none) :
    fixtureLogic p identifier payload s = s := by
  simp only [fixtureLogic, Nat.not_le.mpr level, if_false, unknown]

theorem fixtureLogic_port_other {o : Port} (other : o ≠ p) :
    (fixtureLogic p identifier payload s).port o = s.port o := by
  unfold fixtureLogic fixtureStatus fixtureClash
  split
  · split
    · split
      · split
        · rw [port_enterFixture, port_modFixture]
        · exact port_setPort_other _ s other
      · exact port_setPort_other _ s other
    · split
      · rfl
      · exact port_setPort_other _ s other
  · split
    · split
      · rfl
      · dsimp only
        split <;> exact port_modFixture _ _ s o
    · rfl

/-- The fixture logic writes the buses and raises notices, and nothing else. -/
theorem fixtureLogic_eq :
    fixtureLogic p identifier payload s =
      { s with fbc := (fixtureLogic p identifier payload s).fbc, lkd := (fixtureLogic p identifier payload s).lkd } := by
  have others := fixtureLogic_keeps (fun u : State => { u with fbc := s.fbc, lkd := s.lkd }) (fun _ _ => rfl)
    (fun _ _ _ => rfl) p identifier payload s
  exact congrArg (fun u : State => { u with
    fbc := (fixtureLogic p identifier payload s).fbc, lkd := (fixtureLogic p identifier payload s).lkd }) others

end Logic

end Sys2Proof.Machine
end

section
/-! PROOF. Sends and their ends, receptions, and errors on the bus (O53). -/

namespace Sys2Proof.Machine

namespace BusPort

/-! ## Records of a port after an event, R152 to R154 -/

/-- R154: the state that the counts give, and what is counted, whatever the counts. -/
theorem settle_counts (x : BusPort) :
    x.settle.state = stateOfCounts x.txe x.rxe ∧ x.settle.txe = x.txe ∧ x.settle.rxe = x.rxe ∧
      x.settle.lastOwn = x.lastOwn := by
  unfold settle
  split
  · next detached => exact ⟨detached.symm, rfl, rfl, rfl⟩
  · exact ⟨rfl, rfl, rfl, rfl⟩

/-- R152: a success takes 1 from TXE. -/
def sent (b : BusPort) : BusPort := { b with txe := b.txe - 1, drive := .released, lastOwn := true }

/-- R152: a valid reception is acknowledged and takes 1 from RXE. -/
def acked (b : BusPort) : BusPort := { b with rxe := b.rxe - 1, drive := .ack, lastOwn := false }

/-- R152, R154: the record of a port on the line after a valid reception. -/
def heard (b : BusPort) : BusPort := { b.acked with state := stateOfCounts b.txe (b.rxe - 1) }

theorem settle_acked {b : BusPort} (few : b.txe ≤ 191) : b.acked.settle = b.heard := settle_onLine few

/-- R153: an error while sending adds 8 to TXE. -/
def sendFailed (b : BusPort) : BusPort := { b with txe := b.txe + 8, lastOwn := true }

/-- R153: an error while receiving adds 1 to RXE. -/
def receptionFailed (b : BusPort) : BusPort := { b with rxe := min 255 (b.rxe + 1), lastOwn := false }

/-- R162: the record of a port once the frame that it sent has gone out: the entry has left, and the queue is filled. -/
def sendDone (b : BusPort) : BusPort := b.sent.settle.dropSending.fill

theorem part_sendDone {b : BusPort} (few : b.txe ≤ 191) :
    b.sendDone.part = (stateOfCounts (b.txe - 1) b.rxe, b.txe - 1, b.rxe, .released, true) := by
  have fewer : b.sent.txe ≤ 191 := le_trans (Nat.sub_le _ 1) few
  rw [sendDone, part_fill, settle_onLine fewer]
  rfl

theorem sending_sendDone (b : BusPort) : b.sendDone.sending = none := by
  rw [sendDone, sending_fill, sending_dropSending]

/-- R153: the record of a port after an error, with the error mark that it sends. -/
def marked (x : BusPort) (endBit : Nat) : BusPort :=
  { x.settle.endAttempt with drive := errorMark endBit x.settle.state }

/-! ## Starting to send, R151 -/

theorem freeToStart_waits {b : BusPort} {idle : Nat}
    (h : idle < 4 ∨ b.state = .passive ∧ b.lastOwn = true ∧ idle < 14) : b.freeToStart idle = false := by
  unfold freeToStart
  rcases h with early | ⟨passive, own, early⟩
  · rw [decide_eq_false (Nat.not_le.mpr early), Bool.and_false, Bool.false_and]
  · rw [own, decide_eq_true passive, decide_eq_true early]
    exact Bool.and_false _

theorem freeToStart_starts {b : BusPort} {idle : Nat} (onLine : b.state.onLine = true) (free : b.sending = none)
    (waiting : b.queue ≠ []) (four : 4 ≤ idle) (own : b.state = .passive → b.lastOwn = true → 14 ≤ idle) :
    b.freeToStart idle = true := by
  have held : (decide (b.state = .passive) && b.lastOwn && decide (idle < 14)) = false := by
    rw [Bool.eq_false_iff]
    intro h
    simp only [Bool.and_eq_true, decide_eq_true_eq] at h
    obtain ⟨⟨passive, last⟩, early⟩ := h
    exact Nat.not_lt.mpr (own passive last) early
  simp only [freeToStart, onLine, free, held, decide_eq_true four, Option.isNone_none, Bool.and_true, Bool.true_and,
    Bool.not_false, Bool.not_eq_true', List.isEmpty_eq_false_iff]
  exact waiting

end BusPort

/-! ## The events -/

section Events

variable {p : Port} {s : State}

theorem exec_sendStart_waits {idle : Nat}
    (h : idle < 4 ∨ (s.port p).state = .passive ∧ (s.port p).lastOwn = true ∧ idle < 14) :
    exec (.sendStart p idle) s = .next s :=
  if_neg (by rw [BusPort.freeToStart_waits h]; nofun)

theorem exec_sendStart {idle : Nat} {e : QueueEntry} {rest : List QueueEntry} {f : Fixture}
    (starts : (s.port p).freeToStart idle = true) (queue : (s.port p).queue = e :: rest)
    (found : s.fbc.fixtures.find e.fixture = some f) :
    exec (.sendStart p idle) s = .next (setPort p { s.port p with
      queue := { e with snapshot := some (s.outputs f.first f.count) } :: rest
      drive := .sending (busFrame f.address (levelPayload (s.outputs f.first f.count))) } s) := by
  show execSendStart p idle s = _
  simp only [execSendStart, starts, if_true, queue, List.head?_cons, found, BusPort.begin]

theorem exec_lostArbitration {e : QueueEntry} (sending : (s.port p).sending = some e) (defined : e.orphan = false) :
    exec (.lostArbitration p) s = .next (setPort p { s.port p with
      queue := (s.port p).queue.map (fun x => { x with snapshot := none })
      drive := .released, lastOwn := false } s) := by
  show execLostArbitration p s = _
  simp only [execLostArbitration, sending, BusPort.endAttempt_retry sending defined]

/-- R152, R162: the state after a success, before the fixture is compared with what was sent. -/
def State.afterSend (s : State) (p : Port) (id : Nat) (levels : List Nat) : State :=
  modFixture id (fun f => { f with sent := some levels, countdown := f.keepAlive })
    ((setPort p (s.port p).sendDone s).setLkd (s.countsRaised p ((s.port p).txe - 1) (s.port p).rxe))

theorem exec_sendSuccess {e : QueueEntry} {levels : List Nat} (sending : (s.port p).sending = some e)
    (defined : e.orphan = false) (snapshot : e.snapshot = some levels) :
    exec (.sendSuccess p) s = .next (compareSent e.fixture levels (s.afterSend p e.fixture levels)) := by
  show execSendSuccess p s = _
  have settled := settlePort_counted (p := p) (s := s) (x := (s.port p).sent) rfl
  unfold BusPort.sent at settled
  simp only [execSendSuccess, sending, defined, snapshot, settled, setLkd_port, port_setPort_same, setPort_setLkd,
    setPort_setPort]
  rfl

/-- R152: the state after a valid reception, before the fixture logic. -/
def State.afterHeard (s : State) (p : Port) : State :=
  (setPort p (s.port p).heard s).setLkd (s.countsRaised p (s.port p).txe ((s.port p).rxe - 1))

/-- R156: an enabled filter lets an identifier pass. -/
def BusPort.accepts (b : BusPort) (identifier : Nat) : Prop :=
  ∃ x ∈ b.filters.toList, x.enabled = true ∧ identifier &&& x.mask = x.value &&& x.mask

theorem BusPort.accepts_iff (b : BusPort) (identifier : Nat) :
    b.filters.toList.any (fun f => f.matches_ identifier) = true ↔ b.accepts identifier := by
  simp only [List.any_eq_true, Filter.matches_, Bool.and_eq_true, decide_eq_true_eq, BusPort.accepts]

theorem execValidReception_heard {r : BusReception} {identifier : Nat} {payload : List Byte}
    (onLine : (s.port p).state.onLine = true) (few : (s.port p).txe ≤ 191) (free : (s.port p).sending = none)
    (passed : (s.port p).drive.marking r.recessive = false) (read : readBusFrame r.bits = some (identifier, payload)) :
    execValidReception p r s = .next
      (if (s.port p).filters.toList.any (fun f => f.matches_ identifier) then
        fixtureLogic p identifier payload (s.afterHeard p) else s.afterHeard p) := by
  have settled := settlePort_counted (p := p) (s := s) (x := (s.port p).acked) rfl
  rw [BusPort.settle_acked few] at settled
  unfold BusPort.acked at settled
  simp only [execValidReception, onLine, free, Option.isNone_none, Bool.and_self, if_true, read, passed,
    Bool.false_eq_true, if_false, settled]
  rfl

theorem exec_validReception_accepted {r : BusReception} {identifier : Nat} {payload : List Byte}
    (onLine : (s.port p).state.onLine = true) (few : (s.port p).txe ≤ 191) (free : (s.port p).sending = none)
    (passed : (s.port p).drive.marking r.recessive = false) (read : readBusFrame r.bits = some (identifier, payload))
    (accepts : (s.port p).accepts identifier) :
    exec (.validReception p r) s = .next (fixtureLogic p identifier payload (s.afterHeard p)) :=
  (execValidReception_heard onLine few free passed read).trans
    (congrArg _ (if_pos (((s.port p).accepts_iff identifier).mpr accepts)))

theorem exec_validReception_filtered {r : BusReception} {identifier : Nat} {payload : List Byte}
    (onLine : (s.port p).state.onLine = true) (few : (s.port p).txe ≤ 191) (free : (s.port p).sending = none)
    (passed : (s.port p).drive.marking r.recessive = false) (read : readBusFrame r.bits = some (identifier, payload))
    (refuses : ¬(s.port p).accepts identifier) : exec (.validReception p r) s = .next (s.afterHeard p) :=
  (execValidReception_heard onLine few free passed read).trans
    (congrArg _ (if_neg (mt ((s.port p).accepts_iff identifier).mp refuses)))

/-- R153, R154: the state after an error that a port counts, with the counts in `x`. -/
def State.afterError (s : State) (p : Port) (x : BusPort) (endBit : Nat) : State :=
  (setPort p (x.marked endBit) s).setLkd (s.countsRaised p x.txe x.rxe)

theorem exec_busError_sending {e : BusFault} (onLine : (s.port p).state.onLine = true)
    (sending : (s.port p).sending ≠ none) (kind : e.kind ≠ .check)
    (passed : (s.port p).drive.marking e.recessive = false) :
    exec (.busError p e) s = .next (s.afterError p (s.port p).sendFailed 0) := by
  show execBusError p e s = _
  have isSome : (s.port p).sending.isSome = true := Option.isSome_iff_ne_none.mpr sending
  have possible : possibleError e.kind true = true := by
    cases kind' : e.kind with
    | check => exact absurd kind' kind
    | _ => rfl
  have settled := settlePort_counted (p := p) (s := s) (x := (s.port p).sendFailed) rfl
  unfold BusPort.sendFailed at settled
  simp only [execBusError, isSome, onLine, possible, Bool.and_self, if_true, passed, Bool.false_eq_true, if_false,
    settled, setLkd_port, port_setPort_same, setPort_setLkd, setPort_setPort, acknowledgedBit, Bool.true_eq_false,
    and_false]
  rfl

theorem exec_busError_receiving {e : BusFault} (onLine : (s.port p).state.onLine = true)
    (free : (s.port p).sending = none) (bit : e.kind ≠ .bit) (ack : e.kind ≠ .missingAck)
    (passed : (s.port p).drive.marking e.recessive = false) :
    exec (.busError p e) s = .next
      (s.afterError p (s.port p).receptionFailed (if e.kind = .form then e.endBit else 0)) := by
  show execBusError p e s = _
  have isSome : (s.port p).sending.isSome = false := by rw [free]; rfl
  have possible : possibleError e.kind false = true := by
    cases kind : e.kind with
    | bit => exact absurd kind bit
    | missingAck => exact absurd kind ack
    | _ => rfl
  have settled := settlePort_counted (p := p) (s := s) (x := (s.port p).receptionFailed) rfl
  unfold BusPort.receptionFailed at settled
  simp only [execBusError, isSome, onLine, possible, Bool.and_self, if_true, passed, Bool.false_eq_true, if_false,
    satAdd, settled, setLkd_port, port_setPort_same, setPort_setLkd, setPort_setPort, acknowledgedBit, and_true]
  rfl

end Events

/-! ## What the fixture logic leaves, R157 -/

section Logic

variable {p : Port} {identifier id : Nat} {payload : List Byte} {f : Fixture} {s : State}

theorem fixtureLogic_status_leaves {condition degrees : Byte} (status : 512 ≤ identifier)
    (known : fixtureAt p (identifier - 512) s.fbc.fixtures = some id) (found : s.fbc.fixtures.find id = some f)
    (inRange : condition.toNat ≤ 2) :
    let t := fixtureLogic p identifier [condition, degrees] s
    let state : FixtureState :=
      if condition.toNat = 0 then .ok else if condition.toNat = 1 then .warn else .fault
    let temperature : Int :=
      if degrees.toInt < -40 then -40 else if 125 < degrees.toInt then 125 else degrees.toInt
    t.port p = s.port p ∧
      t.fbc.fixtures.find id = some { f with state := state, temperature := some temperature, silence := 0 } ∧
      (∀ j, j ≠ id → t.fbc.fixtures.find j = s.fbc.fixtures.find j) ∧
      t.lkd = (if state = f.state then s.lkd
        else s.lkd.raise ⟨.fixtureState, s.rtu.counter,
          [.u2 id, .u2 (portCode f.port), .u2 f.address, .u2 f.state.code, .u2 state.code, .i2 temperature]⟩) := by
  intro t state temperature
  have recorded := find_modFixture_self found fun x =>
    { x with temperature := some (recordTemperature degrees), silence := 0 }
  have eq : t = _ := fixtureLogic_status status known inRange
  rw [recordTemperature_eq] at recorded eq
  rw [eq]
  have lkd := enterFixture_lkd (new := state) recorded rfl
  refine ⟨?_, ?_, fun j other => ?_, lkd⟩
  · rw [port_enterFixture, port_modFixture]
  · rw [enterFixture_find, if_pos rfl, recorded]
    rfl
  · rw [enterFixture_find, if_neg other, find_modFixture, if_neg other]

theorem fixtureLogic_ignored_leaves (status : 512 ≤ identifier)
    (known : fixtureAt p (identifier - 512) s.fbc.fixtures = some id)
    (wrong : ∀ condition degrees : Byte, payload = [condition, degrees] → 2 < condition.toNat) :
    let t := fixtureLogic p identifier payload s
    t.port p = { s.port p with ignored := min 65535 ((s.port p).ignored + 1) } ∧
      t.fbc.fixtures = s.fbc.fixtures ∧ t.lkd = s.lkd := by
  intro t
  have eq : t = _ := fixtureLogic_ignored status known wrong
  rw [eq]
  exact ⟨port_setPort_same p _ s, fixtures_setPort p _ s, rfl⟩

theorem fixtureLogic_unknown_leaves (status : 512 ≤ identifier)
    (unknown : fixtureAt p (identifier - 512) s.fbc.fixtures = none) :
    let t := fixtureLogic p identifier payload s
    t.fbc.fixtures = s.fbc.fixtures ∧ t.port p = { s.port p with unknown := (t.port p).unknown } ∧
      (identifier - 512 ∈ (s.port p).unknown → (t.port p).unknown = (s.port p).unknown ∧ t.lkd = s.lkd) ∧
      (identifier - 512 ∉ (s.port p).unknown →
        (∀ a, a ∈ (t.port p).unknown ↔ a = identifier - 512 ∨ a ∈ (s.port p).unknown) ∧
        (t.port p).unknown.length = (s.port p).unknown.length + 1 ∧
        t.lkd = s.lkd.raise ⟨.unknownSource, s.rtu.counter, [.u2 (portCode p), .u2 (identifier - 512)]⟩) := by
  intro t
  have eq : t = _ := fixtureLogic_unknown status unknown
  by_cases noted : identifier - 512 ∈ (s.port p).unknown
  · rw [if_pos noted] at eq
    rw [eq]
    exact ⟨rfl, rfl, fun _ => ⟨rfl, rfl⟩, absurd noted⟩
  · rw [if_neg noted] at eq
    have port : t.port p =
        { s.port p with unknown := insertId (identifier - 512) (s.port p).unknown } := by
      rw [eq]
      exact port_setPort_same p _ s
    refine ⟨?_, ?_, fun old => absurd old noted, fun _ => ⟨fun a => ?_, ?_, ?_⟩⟩
    · rw [eq]
      exact fixtures_setPort p _ s
    · rw [port]
    · rw [port]
      exact mem_insertId _ a _
    · rw [port]
      exact length_insertId noted
    · rw [eq]
      rfl

theorem fixtureLogic_clash_leaves (level : identifier < 512)
    (known : fixtureAt p identifier s.fbc.fixtures = some id) (found : s.fbc.fixtures.find id = some f) :
    let t := fixtureLogic p identifier payload s
    t.port p = s.port p ∧ t.fbc.fixtures.find id = some { f with clash := true } ∧
      (∀ j, j ≠ id → t.fbc.fixtures.find j = s.fbc.fixtures.find j) ∧
      t.lkd = (if f.clash = true then s.lkd
        else s.lkd.raise ⟨.addressClash, s.rtu.counter, [.u2 id, .u2 (portCode p), .u2 identifier]⟩) := by
  intro t
  have eq : t = _ := fixtureLogic_clash level known found
  have fbc : t.fbc = (modFixture id (fun x => { x with clash := true }) s).fbc := by
    rw [eq]
    split <;> rfl
  refine ⟨?_, ?_, fun j other => ?_, ?_⟩
  · rw [State.port, fbc]
    exact port_modFixture id _ s p
  · rw [fbc]
    exact find_modFixture_self found _
  · rw [fbc, find_modFixture, if_neg other]
  · rw [eq]
    split <;> rfl

end Logic

/-! ## What the other events leave -/

namespace BusPort

/-- R153, R154: what an error leaves of a port, whether it stays on the line or not. -/
theorem marked_leaves (x : BusPort) (endBit : Nat) :
    (x.marked endBit).state = stateOfCounts x.txe x.rxe ∧ (x.marked endBit).txe = x.txe ∧
      (x.marked endBit).rxe = x.rxe ∧ (x.marked endBit).lastOwn = x.lastOwn ∧
      (x.marked endBit).drive = errorMark endBit (stateOfCounts x.txe x.rxe) ∧ (x.marked endBit).sending = none := by
  have part := x.settle.part_endAttempt
  simp only [BusPort.part, Prod.mk.injEq] at part
  obtain ⟨state, txe, rxe, -, lastOwn⟩ := part
  obtain ⟨settledState, settledTxe, settledRxe, settledOwn⟩ := x.settle_counts
  exact ⟨state.trans settledState, txe.trans settledTxe, rxe.trans settledRxe, lastOwn.trans settledOwn,
    congrArg (errorMark endBit) settledState, x.settle.sending_endAttempt⟩

/-- R154: a port that becomes DETACHED empties its queue. -/
theorem marked_detached {x : BusPort} (many : 191 < x.txe) (endBit : Nat) :
    (x.marked endBit).queue = [] ∧ (x.marked endBit).quiet = 0 := by
  have idle : x.settle.sending = none := by
    rw [settle_detached many]
    rfl
  rw [marked, endAttempt_idle idle, settle_detached many]
  exact ⟨rfl, rfl⟩

/-- A port that stays on the line and was not sending keeps its queue. -/
theorem marked_idle_queue {x : BusPort} (few : x.txe ≤ 191) (idle : x.sending = none) (endBit : Nat) :
    (x.marked endBit).queue = x.queue := by
  have settled : x.settle.sending = none := by
    rw [settle_onLine few]
    exact idle
  rw [marked, endAttempt_idle settled, settle_onLine few]

/-- R162: a port that stays on the line keeps what was queued where no entry is an orphan. -/
theorem marked_queue {x : BusPort} (few : x.txe ≤ 191) (defined : ∀ e ∈ x.queue, e.orphan = false) (endBit : Nat) :
    (x.marked endBit).queue.map (·.fixture) = x.queue.map (·.fixture) := by
  cases sending : x.sending with
  | none => rw [marked_idle_queue few sending]
  | some e =>
    have settled : x.settle.sending = some e := by
      rw [settle_onLine few]
      exact sending
    rw [marked, endAttempt_retry settled (defined e (List.mem_of_find?_eq_some sending)), settle_onLine few,
      List.map_map]
    rfl

/-- R162: the record of a port after a success, with the fixture marked again where its outputs have changed since. -/
def compared (b : BusPort) (id : Nat) (same : Bool) : BusPort := if same then b.sendDone else b.sendDone.mark id

theorem part_compared {b : BusPort} (few : b.txe ≤ 191) (id : Nat) (same : Bool) :
    (b.compared id same).part = (stateOfCounts (b.txe - 1) b.rxe, b.txe - 1, b.rxe, .released, true) := by
  unfold compared
  split
  · exact part_sendDone few
  · exact (part_mark _ id).trans (part_sendDone few)

theorem sending_compared (b : BusPort) (id : Nat) (same : Bool) : (b.compared id same).sending = none := by
  unfold compared
  split
  · exact b.sending_sendDone
  · exact (sending_mark _ id).trans b.sending_sendDone

end BusPort

section Events

variable {p : Port} {s : State}

theorem exec_sendSuccess_compared {e : QueueEntry} {levels : List Nat} {f : Fixture}
    (sending : (s.port p).sending = some e) (defined : e.orphan = false) (snapshot : e.snapshot = some levels)
    (found : s.fbc.fixtures.find e.fixture = some f) (own : f.port = p) :
    exec (.sendSuccess p) s = .next (setPort p
      ((s.port p).compared e.fixture (decide (s.outputs f.first f.count = levels)))
      (s.afterSend p e.fixture levels)) := by
  have port : (s.afterSend p e.fixture levels).port p = (s.port p).sendDone :=
    (port_modFixture _ _ _ p).trans (port_setPort_same p _ s)
  have recorded : (s.afterSend p e.fixture levels).fbc.fixtures.find e.fixture =
      some { f with sent := some levels, countdown := f.keepAlive } :=
    find_modFixture_self ((congrArg (Table.find _) (fixtures_setPort p _ s)).trans found) _
  rw [exec_sendSuccess sending defined snapshot, compareSent_eq recorded]
  simp only [own, port, BusPort.compared, decide_eq_true_eq]
  rfl

end Events

end Sys2Proof.Machine
end

section
/-! PROOF. Sends and their ends, receptions, and errors on the bus, put together (O53). -/

namespace Sys2Proof.Machine

section Clauses

variable {p : Port} {s : State}

/-- A success, clause by clause. -/
theorem sendSuccess_leaves {e : QueueEntry} {levels : List Nat} {f : Fixture} (few : (s.port p).txe ≤ 191)
    (sending : (s.port p).sending = some e) (defined : e.orphan = false) (snapshot : e.snapshot = some levels)
    (found : s.fbc.fixtures.find e.fixture = some f) (own : f.port = p) :
    let b := s.port p
    ∃ t : State, exec (.sendSuccess p) s = .next t ∧ (t.port p).txe = b.txe - 1 ∧ (t.port p).rxe = b.rxe ∧
      (t.port p).state = stateOfCounts (b.txe - 1) b.rxe ∧ (t.port p).sending = none ∧
      (t.port p).drive = .released ∧ (t.port p).lastOwn = true ∧
      t.fbc.fixtures.find e.fixture = some { f with sent := some levels, countdown := f.keepAlive } ∧
      (levels ≠ s.outputs f.first f.count →
        (t.port p).isQueued e.fixture = true ∨ (t.port p).isDirty e.fixture = true) ∧
      (∀ o, o ≠ p → t.port o = s.port o) ∧
      t = { s with fbc := t.fbc, lkd := s.countsRaised p (b.txe - 1) b.rxe } := by
  intro b
  refine ⟨_, exec_sendSuccess_compared sending defined snapshot found own, ?_⟩
  have part := b.part_compared few e.fixture (decide (s.outputs f.first f.count = levels))
  simp only [BusPort.part, Prod.mk.injEq] at part
  obtain ⟨state, txe, rxe, drive, lastOwn⟩ := part
  rw [port_setPort_same, fixtures_setPort]
  refine ⟨txe, rxe, state, b.sending_compared _ _, drive, lastOwn, ?_, fun changed => ?_, fun o other => ?_, rfl⟩
  · exact find_modFixture_self ((congrArg (Table.find _) (fixtures_setPort p _ s)).trans found) _
  · rw [BusPort.compared, decide_eq_false (Ne.symm changed)]
    exact BusPort.mark_marked _ _
  · rw [port_setPort_other _ _ other, State.afterSend, port_modFixture]
    exact port_setPort_other _ s other

/-- An accepted frame, by what it is. -/
theorem afterHeard_logic (p : Port) (identifier : Nat) (payload : List Byte) (s : State) :
    let u := s.afterHeard p
    let t := fixtureLogic p identifier payload u
    (∀ o, o ≠ p → t.port o = s.port o) ∧ t = { s with fbc := t.fbc, lkd := t.lkd } ∧ u.port p = (s.port p).heard ∧
      u.fbc.fixtures = s.fbc.fixtures := by
  intro u t
  refine ⟨fun o other => ?_, fixtureLogic_eq, port_setPort_same p _ s, fixtures_setPort p _ s⟩
  exact (fixtureLogic_port_other other).trans (port_setPort_other _ s other)

/-- A counted error, clause by clause. -/
theorem afterError_leaves (p : Port) (x : BusPort) (endBit : Nat) (s : State) :
    let t := s.afterError p x endBit
    t.port p = x.marked endBit ∧ (∀ o, o ≠ p → t.port o = s.port o) ∧ t.fbc.fixtures = s.fbc.fixtures ∧
      t = { s with fbc := t.fbc, lkd := s.countsRaised p x.txe x.rxe } :=
  ⟨port_setPort_same p _ s, fun _ other => port_setPort_other _ s other, fixtures_setPort p _ s, rfl⟩

/-- What follows an error mark before its delimiter is neither received nor counted. -/
theorem exec_busError_marking {e : BusFault} (marking : (s.port p).drive.marking e.recessive = true)
    (onLine : (s.port p).state.onLine = true) :
    exec (.busError p e) s = .next
      (if possibleError e.kind (s.port p).sending.isSome = true ∧ e.later = true then
        setPort p { s.port p with lastOwn := false } s else s) := by
  show execBusError p e s = _
  simp only [execBusError, onLine, marking, Bool.true_and, if_true]
  by_cases possible : possibleError e.kind (s.port p).sending.isSome = true
  · simp only [possible, if_true, true_and]
  · simp only [possible, if_false, false_and, Bool.false_eq_true]

theorem exec_validReception_marking {r : BusReception} (marking : (s.port p).drive.marking r.recessive = true)
    (onLine : (s.port p).state.onLine = true) :
    exec (.validReception p r) s = .next
      (if (s.port p).sending = none ∧ readBusFrame r.bits ≠ none then
        setPort p { s.port p with lastOwn := false } s else s) := by
  show execValidReception p r s = _
  simp only [execValidReception, onLine, marking, Bool.true_and, if_true, Option.isNone_iff_eq_none]
  by_cases free : (s.port p).sending = none
  · cases read : readBusFrame r.bits with
    | none => simp only [free, if_true, ne_eq, not_true_eq_false, and_false, if_false]
    | some frame => simp only [free, if_true, ne_eq, reduceCtorEq, not_false_eq_true, and_self]
  · simp only [free, if_false, false_and]

end Clauses

/-- Settles O53: an equation for each event gives the next state, and the clauses say what it holds of the port, the
fixtures and the notices. -/
theorem busSendsAndReceptions : Obligations.BusSendsAndReceptions := by
  refine ⟨fun _ _ => rfl, ?_⟩
  intro p s joined few b counted
  have onLine : b.state.onLine = true := PortState.onLine_of joined
  refine ⟨fun idle => exec_sendStart_waits, ?start, fun e => exec_lostArbitration, ?success, ?reception, ?marking,
    ?sendError, ?receptionError⟩
  case start =>
    intro idle e rest f free queue found four own
    have waiting : b.queue ≠ [] := by simp [queue]
    exact exec_sendStart (BusPort.freeToStart_starts onLine free waiting four own) queue found
  case success => exact fun e levels f => sendSuccess_leaves few
  case reception =>
    intro n bits identifier payload free passed read heard after
    have ended := LineDrive.marking_over passed
    obtain ⟨others, frame, port, fixtures⟩ := afterHeard_logic p identifier payload s
    by_cases accepts : b.accepts identifier
    · refine ⟨_, exec_validReception_accepted (r := ⟨n, bits⟩) onLine few free ended read accepts, others, frame,
        fun refuses => ?_, fun x _ _ _ => ⟨fun id f status known found => ⟨?_, fun wrong => ?_⟩,
          fun status unknown => ?_, fun id f level known found => ?_, fun level unknown => ?_⟩⟩
      · obtain ⟨x, mem, matched⟩ := accepts
        exact absurd matched (refuses x mem)
      · rintro condition degrees rfl inRange
        rw [← fixtures] at known found ⊢
        have leaves := fixtureLogic_status_leaves (degrees := degrees) status known found inRange
        rw [port] at leaves
        exact leaves
      · rw [← fixtures] at known ⊢
        have leaves := fixtureLogic_ignored_leaves status known wrong
        rw [port] at leaves
        exact leaves
      · rw [← fixtures] at unknown ⊢
        have leaves := fixtureLogic_unknown_leaves (payload := payload) status unknown
        rw [port] at leaves
        exact leaves
      · rw [← fixtures] at known found ⊢
        have leaves := fixtureLogic_clash_leaves (payload := payload) level known found
        rw [port] at leaves
        exact leaves
      · rw [← fixtures] at unknown ⊢
        rw [fixtureLogic_level level unknown]
        exact ⟨port, rfl, rfl⟩
    · refine ⟨_, exec_validReception_filtered (r := ⟨n, bits⟩) onLine few free ended read accepts,
        fun o other => port_setPort_other _ s other, rfl, fun _ => ⟨port, fixtures, rfl⟩,
        fun x mem enabled matched => absurd ⟨x, mem, enabled, matched⟩ accepts⟩
  case marking =>
    intro d j mark passed
    have error {e : BusFault} (early : e.recessive < 9) :=
      exec_busError_marking (e := e) (LineDrive.marking_mark mark early) onLine
    have reception {r : BusReception} (early : r.recessive < 9) :=
      exec_validReception_marking (r := r) (LineDrive.marking_mark mark early) onLine
    refine ⟨fun e early last => ?_, fun e early later free bit ack => ?_, fun r early => ⟨fun h => ?_, fun free read => ?_⟩⟩
    · rw [error early, if_neg]
      rw [last]
      exact fun h => absurd h.2 nofun
    · have possible : possibleError e.kind false = true := by
        cases kind : e.kind with
        | bit => exact absurd kind bit
        | missingAck => exact absurd kind ack
        | _ => rfl
      have idle : (s.port p).sending.isSome = false := congrArg Option.isSome free
      rw [error early, idle, if_pos ⟨possible, later⟩]
    · rw [reception early, if_neg]
      rintro ⟨free, read⟩
      exact h.elim (absurd free) read
    · rw [reception early, if_pos ⟨free, read⟩]
  case sendError =>
    intro k n j l sending kind passed
    obtain ⟨port, others, fixtures, frame⟩ := afterError_leaves p b.sendFailed 0 s
    obtain ⟨state, txe, rxe, lastOwn, drive, idle⟩ := b.sendFailed.marked_leaves 0
    refine ⟨_, exec_busError_sending (e := ⟨k, n, j, l⟩) onLine sending kind (LineDrive.marking_over passed), ?_⟩
    rw [port]
    refine ⟨txe, rxe, state, idle, lastOwn, fun many => ?_, fun stays => ⟨?_, fun defined => ?_⟩, others, fixtures,
      frame⟩
    · obtain ⟨queue, quiet⟩ := BusPort.marked_detached (x := b.sendFailed) many 0
      exact ⟨queue, drive.trans (congrArg (errorMark 0) (stateOfCounts_detached _ many)), quiet⟩
    · exact drive.trans (errorMark_onLine _ 0 stays)
    · exact BusPort.marked_queue (x := b.sendFailed) stays defined 0
  case receptionError =>
    intro k n j l free bit ack _ passed
    obtain ⟨port, others, fixtures, frame⟩ := afterError_leaves p b.receptionFailed (if k = .form then j else 0) s
    obtain ⟨state, txe, rxe, lastOwn, drive, -⟩ := b.receptionFailed.marked_leaves (if k = .form then j else 0)
    refine ⟨_, exec_busError_receiving (e := ⟨k, n, j, l⟩) onLine free bit ack (LineDrive.marking_over passed), ?_⟩
    rw [port]
    refine ⟨rxe, txe, state, BusPort.marked_idle_queue (x := b.receptionFailed) few free _, lastOwn,
      drive.trans ((errorMark_onLine _ _ few).trans ?_), others, fixtures, frame⟩
    have capped : min 255 (b.rxe + 1) < 96 ↔ b.rxe + 1 < 96 := by omega
    exact congrArg (LineDrive.mark · _) (decide_eq_decide.mpr (and_congr_right fun _ => capped))

end Sys2Proof.Machine
end

section
/-! PROOF. SET BUS, SET FILTER, DEFINE FIXTURE and DELETE FIXTURE (O51). -/

namespace Sys2Proof.Machine

/-! ## SET BUS, R147 -/

section Bus

variable {p : Port} {q : SetBusReq} {enable : Bool} {rate : Option Nat} {s : State}

/-- R147: the record of a port that SET BUS enables or disables. -/
def BusPort.switched (b : BusPort) (enable : Bool) (rate : Option Nat) : BusPort :=
  if enable then { b with enabled := true, rate := rate.getD b.rate, txe := 0, rxe := 0 }
  else { b.unqueue with
    enabled := false, rate := rate.getD b.rate, txe := 0, rxe := 0, quiet := 0, drive := .released }

/-- R149: the state that SET BUS puts a port in, and why. -/
def switchedTo (enable : Bool) : PortState := if enable then .joining else .off
def switchedBy (enable : Bool) : PortCause := if enable then .enabled else .disabled

/-- R147, R161: the record once the port has entered its state; an enabled port fills its queue. -/
def BusPort.entered (b : BusPort) (enable : Bool) (rate : Option Nat) : BusPort :=
  let x : BusPort := { b.switched enable rate with state := switchedTo enable }
  if enable then x.fill else x

theorem BusPort.entered_leaves (b : BusPort) (enable : Bool) (rate : Option Nat) :
    let x := b.entered enable rate
    x.enabled = enable ∧ x.rate = rate.getD b.rate ∧ x.state = switchedTo enable ∧ x.txe = 0 ∧ x.rxe = 0 ∧
      x.filters = b.filters := by
  cases enable with
  | false => exact ⟨rfl, rfl, rfl, rfl, rfl, rfl⟩
  | true =>
    have kept := BusPort.fill_keeps (fun x => (x.enabled, x.rate, x.state, x.txe, x.rxe, x.filters))
      (fun _ _ _ _ => rfl) { b.switched true rate with state := .joining }
    simp only [Prod.mk.injEq] at kept
    exact kept

/-- R147: a port disabled has an empty queue, and in its dirty set what was queued. -/
theorem BusPort.entered_disabled (b : BusPort) (rate : Option Nat) :
    let x := b.entered false rate
    x.queue = [] ∧ x.quiet = 0 ∧ x.drive = .released ∧
      ∀ id, id ∈ x.dirty ↔ id ∈ b.dirty ∨ ∃ e ∈ b.queue, e.fixture = id ∧ e.orphan = false :=
  ⟨rfl, rfl, rfl, b.mem_unqueue⟩

theorem changeBus_switches (change : (s.port p).enabled ≠ enable) :
    changeBus p enable rate s = (setPort p ((s.port p).entered enable rate) s).setLkd
      (s.portEntered p ((s.port p).switched enable rate) (switchedTo enable) (switchedBy enable)) := by
  cases enable with
  | false =>
    have enabled : (s.port p).enabled = true := Bool.eq_true_of_not_eq_false change
    simp only [changeBus, enabled]
    exact enterPort_setPort p _ _ _ s
  | true =>
    have disabled : (s.port p).enabled = false := Bool.eq_false_of_not_eq_true change
    simp only [changeBus, disabled, enterPort_setPort, setLkd_port, port_setPort_same, setPort_setLkd,
      setPort_setPort]
    rfl

theorem changeBus_enabled (enabled : (s.port p).enabled = true) : changeBus p true rate s = s := by
  simp only [changeBus, enabled]

theorem changeBus_disabled (disabled : (s.port p).enabled = false) :
    changeBus p false rate s = setPort p { s.port p with rate := rate.getD (s.port p).rate } s := by
  simp only [changeBus, disabled]

theorem portEntered_atHead (x : BusPort) (new : PortState) (cause : PortCause) (cmd : Instr)
    (rest : List QueuedRequest) :
    (s.atHead cmd rest).portEntered p x new cause =
      { s.portEntered p x new cause with requests := .command cmd :: rest } := by
  unfold State.portEntered
  split
  · rfl
  · exact Lkd.raise_requests _ _ _

theorem changeBus_atHead (change : (s.port p).enabled ≠ enable) (cmd : Instr) (rest : List QueuedRequest) :
    changeBus p enable rate (s.atHead cmd rest) = (changeBus p enable rate s).atHead cmd rest := by
  rw [changeBus_switches change, changeBus_switches (s := s.atHead cmd rest) change, portEntered_atHead]
  rfl

/-- R147: SET BUS refuses another rate for a port that is and stays enabled. -/
def BusPort.refusesRate (b : BusPort) (enable : Bool) (rate : Option Nat) : Prop :=
  b.enabled = true ∧ enable = true ∧ ∃ r, rate = some r ∧ r ≠ b.rate

theorem setBus_asked (unlocked : s.fsc.showLock = false) (port : portOfCode q.port = some p)
    (code : boolOfCode q.enable = some enable) (asked : q.rate.map rateOfCode = rate.map some) :
    ((s.port p).refusesRate enable rate → setBus q s = refuse .wrongState s) ∧
      (¬(s.port p).refusesRate enable rate → setBus q s =
        .reply .ok ((changeBus p enable rate s).port p).headFields (changeBus p enable rate s)) := by
  have kept : keepOr none (fun c => (rateOfCode c).map some) q.rate = some rate := by
    cases given : q.rate with
    | none =>
      rw [given] at asked
      cases rate with
      | none => rfl
      | some r => cases asked
    | some c =>
      rw [given] at asked
      cases rate with
      | none => cases asked
      | some r =>
        have valid : rateOfCode c = some r := Option.some.inj asked
        exact congrArg (Option.map some) valid
  simp only [setBus, unlocked, port, code, kept]
  constructor
  · rintro ⟨enabled, stays, r, rfl, other⟩
    exact if_pos (by simp only [enabled, stays, Bool.and_self, decide_eq_true other])
  · intro allowed
    refine if_neg fun refused => allowed ?_
    cases rate with
    | none => simp at refused
    | some r =>
      simp only [Bool.and_eq_true, decide_eq_true_eq] at refused
      obtain ⟨⟨enabled, stays⟩, other⟩ := refused
      exact ⟨enabled, stays, r, rfl, other⟩

end Bus

/-! ## SET FILTER, R156 -/

theorem setFilter_eq {q : SetFilterReq} {p : Port} {e : Bool} {s : State} (unlocked : s.fsc.showLock = false)
    (port : portOfCode q.port = some p) (code : boolOfCode q.enabled = some e) :
    setFilter q s = if 7 < q.filter ∨ 1023 < q.value ∨ 1023 < q.mask then refuse .range s
      else .reply .ok [.u2 q.value, .u2 q.mask, .u1 (boolCode e)]
        (setPort p { s.port p with filters := put (s.port p).filters q.filter ⟨q.value, q.mask, e⟩ } s) := by
  simp only [setFilter, unlocked, port, code]
  rfl

/-! ## Fixtures freed, R160 -/

/-- A command that writes the buses alone. -/
theorem removeFixture_onlyBus (id : Nat) (s : State) : removeFixture id s = s.setFbc (removeFixture id s).fbc := by
  unfold removeFixture
  split <;> rfl

theorem markDirty_onlyBus (id : Nat) (s : State) : markDirty id s = s.setFbc (markDirty id s).fbc := by
  unfold markDirty
  split <;> rfl

/-- R160: an entry of the freed fixture becomes an orphan. -/
def QueueEntry.orphaned (id : Nat) (e : QueueEntry) : QueueEntry :=
  if e.fixture = id then { e with orphan := true } else e

@[simp] theorem QueueEntry.snapshot_orphaned (id : Nat) (e : QueueEntry) : (e.orphaned id).snapshot = e.snapshot := by
  unfold QueueEntry.orphaned
  split <;> rfl

/-- R160: an entry that leaves the queue with its fixture. -/
def QueueEntry.waitsFor (id : Nat) (e : QueueEntry) : Bool :=
  decide (e.fixture = id) && !e.orphan && e.snapshot.isNone

/-- R160: the record of a port without a fixture, before its queue is filled. -/
def BusPort.forget (b : BusPort) (id : Nat) : BusPort :=
  { b with
    dirty := b.dirty.erase id
    queue := (b.queue.filter (fun e => !e.waitsFor id)).map (QueueEntry.orphaned id) }

theorem removeFixture_found {id : Nat} {f : Fixture} {s : State} (found : s.fbc.fixtures.find id = some f) :
    removeFixture id s = setPort f.port ((s.port f.port).forget id).fill
      (s.setFbc { s.fbc with fixtures := s.fbc.fixtures.erase id }) := by
  have port : (s.setFbc { s.fbc with fixtures := s.fbc.fixtures.erase id }).port f.port = s.port f.port := by
    cases f.port <;> rfl
  simp only [removeFixture, found, port]
  rfl

/-- R160: the frame that the port is sending goes on. -/
theorem BusPort.sending_forget (b : BusPort) (id : Nat) :
    (b.forget id).sending.map (·.snapshot) = b.sending.map (·.snapshot) := by
  unfold BusPort.sending BusPort.forget
  dsimp only
  induction b.queue with
  | nil => rfl
  | cons e rest ih =>
    rw [List.filter_cons, List.find?_cons]
    cases sending : e.snapshot.isSome with
    | true =>
      have stays : e.waitsFor id = false := by
        rw [QueueEntry.waitsFor, Option.isNone_eq_false_iff.mpr sending, Bool.and_false]
      simp only [stays, Bool.not_false, if_true, List.map_cons, List.find?_cons, QueueEntry.snapshot_orphaned, sending,
        Option.map_some]
    | false =>
      dsimp only
      rw [← ih]
      split
      · simp only [List.map_cons, List.find?_cons, QueueEntry.snapshot_orphaned, sending]
      · rfl

theorem BusPort.isQueued_forget (b : BusPort) (id : Nat) : (b.forget id).isQueued id = false := by
  rw [BusPort.isQueued, List.any_eq_false]
  intro e mem
  obtain ⟨x, -, rfl⟩ := List.mem_map.mp mem
  unfold QueueEntry.orphaned
  split
  · simp
  · next other => simp [other]

/-- R160: a freed id is neither queued nor dirty. -/
theorem BusPort.forget_unmarked {b : BusPort} {id : Nat} (once : b.dirty.Nodup) :
    (b.forget id).fill.isQueued id = false ∧ (b.forget id).fill.isDirty id = false :=
  BusPort.fill_unmarked (b.isQueued_forget id) once.not_mem_erase

theorem find_removeFixture {id j : Nat} (other : j ≠ id) (s : State) :
    (removeFixture id s).fbc.fixtures.find j = s.fbc.fixtures.find j := by
  cases found : s.fbc.fixtures.find id with
  | none => simp only [removeFixture, found]
  | some f =>
    rw [removeFixture_found found, fixtures_setPort]
    exact (Table.find_erase id j _).trans (if_neg other)

theorem deleteFixture_ok {id : Nat} {f : Fixture} {s : State} (unlocked : s.fsc.showLock = false) (number : id ≤ 191)
    (found : s.fbc.fixtures.find id = some f) :
    deleteFixture id s = .reply .ok [.u1 id, .u1 (portCode f.port), .u2 f.address] (removeFixture id s) := by
  have passed : firstFailing [(s.fsc.showLock, Status.locked), (decide (191 < id), .range)] = none := by
    rw [unlocked, decide_eq_false (Nat.not_lt.mpr number)]
    rfl
  simp only [deleteFixture, passed, found]

/-! ## Fixtures defined, R158 -/

section Define

variable {q : DefineFixtureReq} {p : Port} {s : State}

/-- R158: the state with the new fixture, marked. -/
def State.defined (s : State) (q : DefineFixtureReq) (p : Port) : State :=
  let freed := removeFixture q.id s
  markDirty q.id (freed.setFbc { freed.fbc with fixtures := freed.fbc.fixtures.insert q.id (fixtureRecord q p) })

theorem defineFixture_ok (unlocked : s.fsc.showLock = false) (port : portOfCode q.port = some p)
    (inRange : fixtureOutOfRange q = false) (free : addressTaken q.id p q.address s.fbc.fixtures = false) :
    defineFixture q s = .reply .ok ((fixtureRecord q p).fields q.id) (s.defined q p) := by
  simp only [defineFixture, unlocked, port]
  refine checked_ok _ _ _ ?_
  simp only [List.mem_cons, List.not_mem_nil, or_false, forall_eq_or_imp, forall_eq]
  exact ⟨inRange, free⟩

theorem fixtureOutOfRange_eq_false (number : q.id ≤ 191) (address : q.address ≤ 511) (one : 1 ≤ q.count)
    (most : q.count ≤ 16) (inTable : q.first + q.count ≤ 768) (alive : ∀ k, q.keepAlive = some k → 1 ≤ k ∧ k ≤ 255)
    (silence : ∀ k, q.silence = some k → k ≤ 65535) : fixtureOutOfRange q = false := by
  have keepAlive : 1 ≤ q.keepAlive.getD 50 ∧ q.keepAlive.getD 50 ≤ 255 := by
    cases given : q.keepAlive with
    | none => decide
    | some k => exact alive k given
  have limit : q.silence.getD 150 ≤ 65535 := by
    cases given : q.silence with
    | none => decide
    | some k => exact silence k given
  simp only [fixtureOutOfRange, Bool.or_eq_false_iff, decide_eq_false_iff_not]
  omega

theorem addressTaken_eq_false {id address : Nat} {fixtures : Table Fixture}
    (free : ∀ e ∈ fixtures, e.1 ≠ id → ¬(e.2.port = p ∧ e.2.address = address)) :
    addressTaken id p address fixtures = false := by
  refine List.any_eq_false.mpr fun e mem taken => ?_
  simp only [Bool.and_eq_true, decide_eq_true_eq] at taken
  obtain ⟨⟨other, port⟩, same⟩ := taken
  exact free e mem other ⟨port, same⟩

theorem State.defined_onlyBus : s.defined q p = s.setFbc (s.defined q p).fbc :=
  calc s.defined q p
    _ = (removeFixture q.id s).setFbc (s.defined q p).fbc := markDirty_onlyBus q.id _
    _ = (s.setFbc (removeFixture q.id s).fbc).setFbc (s.defined q p).fbc :=
      congrArg (State.setFbc · _) (removeFixture_onlyBus q.id s)
    _ = s.setFbc (s.defined q p).fbc := rfl

theorem State.defined_find (j : Nat) :
    (s.defined q p).fbc.fixtures.find j = if j = q.id then some (fixtureRecord q p) else s.fbc.fixtures.find j := by
  rw [State.defined, fixtures_markDirty]
  refine (Table.find_insert q.id j _ _).trans ?_
  by_cases same : j = q.id
  · rw [if_pos same, if_pos same]
  · rw [if_neg same, if_neg same, find_removeFixture same]

theorem State.defined_marked : (s.defined q p).marked p q.id :=
  markDirty_marks (f := fixtureRecord q p) ((Table.find_insert q.id q.id _ _).trans (if_pos rfl))

end Define

/-! ## The statement -/

section Requests

variable {tag : Byte} {rest : List QueuedRequest} {s : State}

/-- SET BUS where it enables or disables the port. -/
theorem exec_setBus_switches {q : SetBusReq} {p : Port} {e : Bool} {rate : Option Nat} (unlocked : s.fsc.showLock = false)
    (h : s.takes (.setBus tag q) rest) (port : portOfCode q.port = some p) (code : boolOfCode q.enable = some e)
    (asked : q.rate.map rateOfCode = rate.map some) (change : (s.port p).enabled ≠ e) :
    exec (.setBus tag q) s = .next ((changeBus p e rate s).repliedFrom s.lkd.ready.length tag 0x60 .ok
      ((changeBus p e rate s).port p).headFields rest) := by
  have answers := (setBus_asked (s := s.atHead (.setBus tag q) rest) unlocked port code asked).2
    fun ⟨enabled, enable, _⟩ => change (enabled.trans enable.symm)
  rw [changeBus_atHead change] at answers
  exact congrArg _ (serve_atHead s _ rest tag 0x60 (setBus q) _ .ok _ h answers)

theorem exec_defineFixture {q : DefineFixtureReq} {p : Port} (h : s.takes (.defineFixture tag q) rest)
    (unlocked : s.fsc.showLock = false) (port : portOfCode q.port = some p) (inRange : fixtureOutOfRange q = false)
    (free : addressTaken q.id p q.address s.fbc.fixtures = false) :
    ∃ t : State, exec (.defineFixture tag q) s =
        .next (t.answered tag 0x62 .ok ((fixtureRecord q p).fields q.id) rest) ∧
      t.fbc.fixtures.find q.id = some (fixtureRecord q p) ∧
      (∀ id, id ≠ q.id → t.fbc.fixtures.find id = s.fbc.fixtures.find id) ∧ t.marked p q.id ∧
      t = { s with fbc := t.fbc } := by
  have answers := defineFixture_ok (s := s.atHead (.defineFixture tag q) rest) unlocked port inRange free
  have find := State.defined_find (s := s.atHead (.defineFixture tag q) rest) (q := q) (p := p)
  have marked := State.defined_marked (s := s.atHead (.defineFixture tag q) rest) (q := q) (p := p)
  rw [State.defined_onlyBus] at answers
  generalize (State.defined (s.atHead (.defineFixture tag q) rest) q p) = u at answers find marked
  exact ⟨s.setFbc u.fbc, congrArg _ (serve_ok _ _ _ _ _ _ _ _ h answers rfl), (find q.id).trans (if_pos rfl),
    fun id other => (find id).trans (if_neg other), marked, rfl⟩

end Requests

/-- Settles O51: what each handler answers, with the Link Dispatcher's reply around it. -/
theorem busSettings : Obligations.BusSettings := by
  unfold Obligations.BusSettings
  intro tag rest s unlocked
  refine ⟨?bus, ?filter, ?define, ?delete⟩
  case bus =>
    intro q p e rate h port code asked b head
    obtain ⟨refused, carriedOut⟩ := setBus_asked (s := s.atHead (.setBus tag q) rest) unlocked port code asked
    refine ⟨fun enabled stays same => ?_, fun enabled stays other => ?_, fun disabled stays => ?_, fun change => ?_⟩
    · subst stays
      have answers := carriedOut fun ⟨_, _, r, given, other⟩ => other (same r given)
      rw [changeBus_enabled (s := s.atHead (.setBus tag q) rest) enabled] at answers
      rw [show head s = b.headFields by simp only [head, BusPort.headFields, enabled]; rfl]
      exact congrArg _ (serve_ok _ _ _ _ _ _ _ _ h answers rfl)
    · exact congrArg _ (serve_refused _ _ _ _ _ _ _ h (refused ⟨enabled, stays, other⟩))
    · subst stays
      have answers := carriedOut fun ⟨_, enable, _⟩ => absurd enable nofun
      rw [changeBus_disabled (s := s.atHead (.setBus tag q) rest) disabled, port_setPort_same] at answers
      have fields : head (setPort p { b with rate := rate.getD b.rate } s) =
          ({ b with rate := rate.getD b.rate } : BusPort).headFields := by
        simp only [head, port_setPort_same, BusPort.headFields, disabled]
      dsimp only
      rw [fields]
      exact congrArg _ (serve_ok _ _ _ _ _ _ _ _ h answers rfl)
    · have switches := changeBus_switches (rate := rate) change
      obtain ⟨enabled, newRate, state, txe, rxe, filters⟩ := b.entered_leaves e rate
      have entered : (changeBus p e rate s).port p = b.entered e rate := by
        rw [switches, setLkd_port, port_setPort_same]
      refine ⟨changeBus p e rate s, ?_, ?_⟩
      · rw [exec_setBus_switches unlocked h port code asked change]
        simp only [head, BusPort.headFields, entered, enabled]
      · rw [entered]
        refine ⟨enabled, newRate, state, txe, rxe, filters, fun off => ?_, fun o other => ?_, ?_, ?_, ?_⟩
        · subst off
          exact b.entered_disabled rate
        · rw [switches]
          exact port_setPort_other _ s other
        · rw [switches]
          exact fixtures_setPort p _ s
        · rw [switches, state]
          cases e <;> exact if_congr eq_comm rfl rfl
        · rw [switches]
          rfl
  case filter =>
    intro q p e h port code
    exact (congrArg _ (serve_refusedIf h (setFilter_eq (s := s.atHead (.setFilter tag q) rest) unlocked port code)
      fun answers => serve_ok _ _ _ _ _ _ _ _ h answers rfl))
  case define =>
    intro q p h port number address one most inTable alive silence free keep limit
    have record : fixtureRecord q p =
        ⟨p, q.address, q.first, q.count, keep, limit, .unseen, none, none, keep, 0, false⟩ := by
      simp only [fixtureRecord, keep, limit]
      cases q.keepAlive <;> cases q.silence <;> rfl
    obtain ⟨t, answered, find, others, marked, frame⟩ := exec_defineFixture h unlocked port
      (fixtureOutOfRange_eq_false number address one most inTable alive silence) (addressTaken_eq_false free)
    exact ⟨t, _, answered, record ▸ find, others, marked, frame⟩
  case delete =>
    intro id f h number found
    have answers := deleteFixture_ok (s := s.atHead (.deleteFixture tag id) rest) unlocked number found
    rw [removeFixture_found (s := s.atHead (.deleteFixture tag id) rest) found] at answers
    refine ⟨setPort f.port ((s.port f.port).forget id).fill
      (s.setFbc { s.fbc with fixtures := s.fbc.fixtures.erase id }),
      congrArg _ (serve_ok _ _ _ _ _ _ _ _ h answers rfl), fixtures_setPort f.port _ _, ?_, fun once => ?_,
      fun o other => ?_, rfl⟩
    · rw [port_setPort_same, BusPort.sending_fill, BusPort.sending_forget]
    · rw [port_setPort_same]
      exact BusPort.forget_unmarked once
    · rw [port_setPort_other _ _ other]
      cases o <;> rfl

end Sys2Proof.Machine
end
